-- ==== Sys2Proof/Word.lean ====
section
/-! DEFINITION. Bytes and the only arithmetic done on them (spec/00_scope.md R7, spec/44 R140). -/

namespace Sys2Proof

/-- A byte: 8 bits, 0 to 255 (R7). -/
abbrev Byte := BitVec 8

/-- A datagram or any other list of bytes handed over whole (spec/20_memory.md R34). -/
abbrev Datagram := List Byte

/-- `zext(v)`: the natural number of the same value (R7). -/
abbrev zext (b : Byte) : Nat := b.toNat

/-- The exclusive OR of a list of bytes, 0x00 for the empty list (R7, R140 (a)). -/
def xorAll : List Byte → Byte
  | [] => 0x00
  | b :: bs => b ^^^ xorAll bs

end Sys2Proof
end

