-- ==== Sys2Proof/Config.lean ====
section
/-! DEFINITION. What is fixed for a machine: the constants of spec/00_scope.md R6, the configuration record of
spec/10_state.md R15 and the four parameters of spec/00_scope.md R5. -/

namespace Sys2Proof

/-- The configuration record `cfg`, registers 0 to 6 in this order (R15). -/
structure Cfg where
  /-- register 0: global enable of ACK and NAK -/
  sendAcknowledge : Bool
  /-- register 1: every address passes the address filter -/
  ackAll : Bool
  /-- register 2: address 0x20 passes -/
  ackModbus40 : Bool
  /-- register 3: address 0x16 passes -/
  ackSms40 : Bool
  /-- register 4: address 0x19 passes -/
  ackRmu40 : Bool
  /-- register 5: forwarding scope, all or filtered -/
  forwardAll : Bool
  /-- register 6: the gateway's own modbus address -/
  ownAddress : Byte
deriving DecidableEq, Repr

/-- FWD_FORMAT (R5 P3, spec/30_encoding.md R66). -/
inductive FwdFormat where
  /-- the whole frame, checksum byte included -/
  | full
  /-- the frame without its last byte -/
  | noChecksum
deriving DecidableEq, Repr

/-- The implementation parameters P1 to P4 (R5). They are constant over every step; they stand in State so that a
statement about every state speaks of every value of them (notes/assumptions/1.md). -/
structure Params where
  /-- P1, MAX_FRAME: the size of the frame buffer -/
  maxFrame : Nat
  /-- P2, T_SETTLE: a number of time units of no named length (notes/assumptions/4.md) -/
  tSettle : Nat
  /-- P3, FWD_FORMAT -/
  fwdFormat : FwdFormat
  /-- P4, CFG_INIT: what RESET puts into `cfg` -/
  cfgInit : Cfg
deriving DecidableEq, Repr

namespace Config

/-- START (R6). -/
abbrev start : Byte := 0x5C
/-- QUIRK_CHK (R6). -/
abbrev quirkChk : Byte := 0xC5
/-- ACK (R6). -/
abbrev ack : Byte := 0x06
/-- NAK (R6). -/
abbrev nak : Byte := 0x15
/-- CMD_RTOKEN (R6). -/
abbrev cmdRtoken : Byte := 0x69
/-- CMD_WTOKEN (R6). -/
abbrev cmdWtoken : Byte := 0x6B
/-- ADDR_SMS40 (R6). -/
abbrev addrSms40 : Byte := 0x16
/-- ADDR_RMU40 (R6). -/
abbrev addrRmu40 : Byte := 0x19
/-- ADDR_MODBUS40 (R6). -/
abbrev addrModbus40 : Byte := 0x20
/-- OVERHEAD: total size = length + 6; also MIN_FRAME (R6). -/
abbrev overhead : Nat := 6
/-- IDX_ADDR (R6). -/
abbrev idxAddr : Nat := 2
/-- IDX_CMD (R6). -/
abbrev idxCmd : Nat := 3
/-- IDX_LEN (R6). -/
abbrev idxLen : Nat := 4

/-- The value this model takes for the open parameter CFG_INIT at State.reset: every field 0.
DESIGN CHOICE, unsafe: the spec gives none (R5 P4, R24; notes/assumptions/2.md). -/
def cfgInit : Cfg where
  sendAcknowledge := false
  ackAll := false
  ackModbus40 := false
  ackSms40 := false
  ackRmu40 := false
  forwardAll := false
  ownAddress := 0x00

/-- The defaults of R5: MAX_FRAME 128, T_SETTLE 1, FWD_FORMAT FULL; CFG_INIT as above. -/
def defaults : Params where
  maxFrame := 128
  tSettle := 1
  fwdFormat := .full
  cfgInit := cfgInit

end Config

/-- The legal range of the parameters: MAX_FRAME >= 6 and T_SETTLE > 0 (R5). -/
abbrev Params.Legal (p : Params) : Prop := 6 ≤ p.maxFrame ∧ 0 < p.tSettle

end Sys2Proof
end

