-- ==== Sys2Proof/Syntax.lean ====
section
/-! DEFINITION. The operations of spec/opcode_table.json, one constructor a row, and the spaces their words are
read in. -/

namespace Sys2Proof

/-- The kind of a token (spec/43 R111). -/
inductive TokenKind where
  | read
  | write
deriving DecidableEq, Repr

/-- The seven fields of `cfg` by register number (spec/10_state.md R15). -/
inductive CfgField where
  | sendAcknowledge
  | ackAll
  | ackModbus40
  | ackSms40
  | ackRmu40
  | forwardAll
  | ownAddress
deriving DecidableEq, Repr

/-- The operations of the block and of its host: every row of spec/opcode_table.json, in the table's order. -/
inductive Instr where
  /-- SYNC.SKIP (R71) -/
  | syncSkip (b : Byte)
  /-- SYNC.START (R72) -/
  | syncStart
  /-- ACC.OVERSIZE (R73) -/
  | accOversize (b : Byte)
  /-- ACC.SHORT (R74) -/
  | accShort (b : Byte)
  /-- ACC.PARTIAL (R75) -/
  | accPartial (b : Byte)
  /-- ACC.COMPLETE (R76) -/
  | accComplete (b : Byte)
  /-- CHK.COMPUTE (R85) -/
  | chkCompute
  /-- CHK.MATCH (R87): `calc == stored`, both `v` -/
  | chkMatch (v : Byte)
  /-- CHK.QUIRK (R88): `calc == 0x5C`, `stored == 0xC5` -/
  | chkQuirk
  /-- CHK.FAIL (R89) -/
  | chkFail (computed stored : Byte)
  /-- FRAME.RTOKEN (R59): `5C hdr1 addr 69 00 chk` -/
  | frameRtoken (hdr1 addr chk : Byte)
  /-- FRAME.WTOKEN (R59): `5C hdr1 addr 6B 00 chk` -/
  | frameWtoken (hdr1 addr chk : Byte)
  /-- FRAME.DATA (R59): `5C hdr1 addr cmd length payload chk` -/
  | frameData (hdr1 addr cmd : Byte) (payload : Datagram) (chk : Byte)
  /-- DISPATCH.DATA (R126) -/
  | dispatchData
  /-- DISPATCH.TOKEN (R127) -/
  | dispatchToken
  /-- DISPATCH.CHKFAIL (R128) -/
  | dispatchChkfail
  /-- DISPATCH.INVALID (R129) -/
  | dispatchInvalid
  /-- ACK.DECIDE (R97) -/
  | ackDecide
  /-- ACK.SEND (R98) -/
  | ackSend
  /-- NAK.SEND (R99) -/
  | nakSend
  /-- TXSEQ(d) (R100) -/
  | txseq (d : Datagram)
  /-- TOK.MATCH (R110): `5C hdr1 addr 69|6B 00 chk` -/
  | tokMatch (hdr1 addr : Byte) (kind : TokenKind) (chk : Byte)
  /-- TOK.RELAY (R113) -/
  | tokRelay (kind : TokenKind) (d : Datagram)
  /-- TOK.FALLBACK (R114) -/
  | tokFallback (kind : TokenKind)
  /-- TOK.EMPTY (R116) -/
  | tokEmpty (kind : TokenKind)
  /-- CFG.WRITE(field, v) (R133) -/
  | cfgWrite (field : CfgField) (v : Byte)
  /-- RDQ.PUSH(d) (R134) -/
  | rdqPush (d : Datagram)
  /-- WRQ.PUSH(d) (R134) -/
  | wrqPush (d : Datagram)
  /-- RESET (R170) -/
  | reset
  /-- STOP (R154) -/
  | stop
  /-- ADDR.SMS40 (R96) -/
  | addrSms40
  /-- ADDR.RMU40 (R96) -/
  | addrRmu40
  /-- ADDR.MODBUS40 (R96) -/
  | addrModbus40
  /-- ADDR.OTHER (R96) -/
  | addrOther (a : Byte)
deriving DecidableEq, Repr

/-- A space of words: the component that reads the word, and what beside the word selects the operation. The
formats of the table (RXBYTE, FRAMECHK, FRAME, ...) split by reader, since two rows of one format may have the same
word (notes/assumptions/11.md). -/
inductive Space where
  /-- RXBYTE: a byte seen in WAIT_START (R70) -/
  | rxWait
  /-- RXBYTE: a byte seen in ACCUM at position `idx`, with `need` bytes declared (R70) -/
  | rxAccum (maxFrame idx need : Nat)
  /-- FRAMECHK: the pair (calc, stored), or no word for CHK.COMPUTE (R85 to R89) -/
  | check
  /-- FRAME: a complete accepted frame, classified for the gateway address `own` (R59) -/
  | frame (own : Byte)
  /-- FRAME: a frame as the token recognizer reads it (R110) -/
  | recognizer
  /-- STEP: which DISPATCH rule (R126 to R129) -/
  | dispatch
  /-- POLICY: ACK.DECIDE (R97) -/
  | policy
  /-- RESP: the single-byte responses (R60) -/
  | resp
  /-- SEQ: a byte list to transmit (R100) -/
  | seq
  /-- DGRAM: a datagram claimed from the queue of the kind (R61) -/
  | dgram (kind : TokenKind)
  /-- RESP, as the token arbiter's fallback (R114) -/
  | fallback (kind : TokenKind)
  /-- HOST: a host operation (R133 to R136) -/
  | host
  /-- ADDRESS: an address byte before the filter (R96) -/
  | address
deriving DecidableEq, Repr

/-- The command byte of a token kind (R111). -/
def TokenKind.command : TokenKind → Byte
  | .read => Config.cmdRtoken
  | .write => Config.cmdWtoken

/-- The register number of a field (R15). -/
def CfgField.number : CfgField → Byte
  | .sendAcknowledge => 0
  | .ackAll => 1
  | .ackModbus40 => 2
  | .ackSms40 => 3
  | .ackRmu40 => 4
  | .forwardAll => 5
  | .ownAddress => 6

/-- The value has the field's width: 8 bits for `ownAddress`, 1 bit for the others (R15). -/
def CfgField.admits : CfgField → Byte → Bool
  | .ownAddress, _ => true
  | _, v => v == 0 || v == 1

end Sys2Proof
end

