-- ==== Sys2Proof/WellFormed.lean ====
section
/-! DEFINITION. Which terms of Instr are operations of the spec. -/

namespace Sys2Proof

/-- The acceptance condition on the pair (calc, stored) of a complete frame (spec/41 R90). -/
def ChkAccepted (computed stored : Byte) : Bool :=
  computed == stored || (computed == Config.start && stored == Config.quirkChk)

/-- The value conditions each row of spec/opcode_table.json puts on its operands. What depends on the state
(position, configuration, queues) is checked where the operation runs. -/
def Instr.WellFormed : Instr → Bool
  | .syncSkip b => b != Config.start
  | .chkFail computed stored => !ChkAccepted computed stored
  | .frameRtoken hdr1 addr chk => ChkAccepted (xorAll [hdr1, addr, Config.cmdRtoken, 0]) chk
  | .frameWtoken hdr1 addr chk => ChkAccepted (xorAll [hdr1, addr, Config.cmdWtoken, 0]) chk
  | .frameData hdr1 addr cmd payload chk =>
    decide (payload.length ≤ 255) &&
      ChkAccepted (xorAll (hdr1 :: addr :: cmd :: BitVec.ofNat 8 payload.length :: payload)) chk
  | .tokMatch hdr1 addr kind chk => ChkAccepted (xorAll [hdr1, addr, kind.command, 0]) chk
  | .txseq d => !d.isEmpty
  | .tokRelay _ d => !d.isEmpty
  | .cfgWrite field v => field.admits v
  | .addrOther a => a != Config.addrSms40 && a != Config.addrRmu40 && a != Config.addrModbus40
  | .syncStart | .accOversize _ | .accShort _ | .accPartial _ | .accComplete _ => true
  | .chkCompute | .chkMatch _ | .chkQuirk => true
  | .dispatchData | .dispatchToken | .dispatchChkfail | .dispatchInvalid => true
  | .ackDecide | .ackSend | .nakSend => true
  | .tokFallback _ | .tokEmpty _ => true
  | .rdqPush _ | .wrqPush _ | .reset | .stop => true
  | .addrSms40 | .addrRmu40 | .addrModbus40 => true

end Sys2Proof
end

