-- ==== Sys2Proof/Decode.lean ====
section
/-! DEFINITION. The decoder, total on any bytes in any space and rejecting by name; then the encoder; then which
space an operation's word belongs to; then the reading of a row's word as spec/opcode_table.json numbers its bits. -/

namespace Sys2Proof

/-- Why a word of a space is no operation. -/
inductive DecodeError where
  /-- the number of bytes is not the space's -/
  | wrongLength
  /-- a frame that does not begin with 0x5C (R52) -/
  | noStart
  /-- a frame whose size is not length + 6 (R56) -/
  | lengthMismatch
  /-- a frame that has not the token pattern (R110) -/
  | notToken
  /-- a byte that selects no operation of the space -/
  | unknownSelector
  /-- a configuration register number above 6 (R15) -/
  | unknownField
  /-- a value wider than its configuration field (R15) -/
  | valueTooWide
deriving DecidableEq, Repr

/-- The operation of an RX step in ACCUM, tested in the order of spec/40 R70. -/
def decodeAccum (maxFrame idx need : Nat) (b : Byte) : Instr :=
  if maxFrame ≤ idx then .accOversize b
  else if idx + 1 < Config.overhead then .accShort b
  else if idx + 1 < need then .accPartial b
  else .accComplete b

/-- The verdict operation a pair (calc, stored) selects (R87 to R89). -/
def decodeCheck (computed stored : Byte) : Instr :=
  if computed = stored then .chkMatch computed
  else if computed = Config.start ∧ stored = Config.quirkChk then .chkQuirk
  else .chkFail computed stored

/-- The bytes of a frame after its start byte, cut into header, payload and checksum (R51): hdr1, address, command,
length, then `length` payload bytes and one checksum byte, no more and no fewer. -/
def splitFrame : List Byte → Except DecodeError (Byte × Byte × Byte × Datagram × Byte)
  | s :: h :: a :: c :: n :: rest =>
    if s ≠ Config.start then .error .noStart
    else if rest.length ≠ zext n + 1 then .error .lengthMismatch
    else .ok (h, a, c, rest.take (zext n), rest.getLastD 0)
  | s :: _ => if s ≠ Config.start then .error .noStart else .error .wrongLength
  | [] => .error .wrongLength

/-- The class of a complete accepted frame for the gateway address `own` (R59). -/
def classify (own h a c : Byte) (p : Datagram) (k : Byte) : Instr :=
  if a = own ∧ p = [] ∧ c = Config.cmdRtoken then .frameRtoken h a k
  else if a = own ∧ p = [] ∧ c = Config.cmdWtoken then .frameWtoken h a k
  else .frameData h a c p k

/-- The token recognizer's reading of a frame (R110, R111), the address left to the configuration. -/
def recognize (h a c : Byte) (p : Datagram) (k : Byte) : Except DecodeError Instr :=
  if p = [] ∧ c = Config.cmdRtoken then .ok (.tokMatch h a .read k)
  else if p = [] ∧ c = Config.cmdWtoken then .ok (.tokMatch h a .write k)
  else .error .notToken

/-- The configuration field of a register number (R15). -/
def CfgField.ofNumber (n : Byte) : Option CfgField :=
  if n = 0 then some .sendAcknowledge
  else if n = 1 then some .ackAll
  else if n = 2 then some .ackModbus40
  else if n = 3 then some .ackSms40
  else if n = 4 then some .ackRmu40
  else if n = 5 then some .forwardAll
  else if n = 6 then some .ownAddress
  else none

/-- The host's words: selector byte 0 to 4, then the operands. The selector values are the model's
(DESIGN CHOICE, notes/assumptions/11.md); the register numbers are R15's. -/
def decodeHost : List Byte → Except DecodeError Instr
  | [] => .error .wrongLength
  | sel :: ops =>
    if sel = 0 then
      match ops with
      | [n, v] =>
        match CfgField.ofNumber n with
        | none => .error .unknownField
        | some f => if f.admits v then .ok (.cfgWrite f v) else .error .valueTooWide
      | _ => .error .wrongLength
    else if sel = 1 then .ok (.rdqPush ops)
    else if sel = 2 then .ok (.wrqPush ops)
    else if sel = 3 then if ops = [] then .ok .reset else .error .wrongLength
    else if sel = 4 then if ops = [] then .ok .stop else .error .wrongLength
    else .error .unknownSelector

/-- The filter entry of an address byte (R40, R96). -/
def decodeAddress (a : Byte) : Instr :=
  if a = Config.addrSms40 then .addrSms40
  else if a = Config.addrRmu40 then .addrRmu40
  else if a = Config.addrModbus40 then .addrModbus40
  else .addrOther a

/-- The selector of a DISPATCH rule; the values are the model's (DESIGN CHOICE, notes/assumptions/11.md). -/
def decodeDispatch (b : Byte) : Except DecodeError Instr :=
  if b = 0 then .ok .dispatchData
  else if b = 1 then .ok .dispatchToken
  else if b = 2 then .ok .dispatchChkfail
  else if b = 3 then .ok .dispatchInvalid
  else .error .unknownSelector

/-- The single-byte responses (R60). -/
def decodeResp (b : Byte) : Except DecodeError Instr :=
  if b = Config.ack then .ok .ackSend
  else if b = Config.nak then .ok .nakSend
  else .error .unknownSelector

/-- The decoder: the operation that the word `ws` is in the space `sp`, or the reason why it is none. -/
def decode : Space → List Byte → Except DecodeError Instr
  | .rxWait, [b] => .ok (if b = Config.start then .syncStart else .syncSkip b)
  | .rxAccum maxFrame idx need, [b] => .ok (decodeAccum maxFrame idx need b)
  | .check, [] => .ok .chkCompute
  | .check, [computed, stored] => .ok (decodeCheck computed stored)
  | .frame own, ws =>
    match splitFrame ws with
    | .ok (h, a, c, p, k) => .ok (classify own h a c p k)
    | .error e => .error e
  | .recognizer, ws =>
    match splitFrame ws with
    | .ok (h, a, c, p, k) => recognize h a c p k
    | .error e => .error e
  | .dispatch, [b] => decodeDispatch b
  | .policy, [] => .ok .ackDecide
  | .resp, [b] => decodeResp b
  | .seq, ws => if ws = [] then .error .wrongLength else .ok (.txseq ws)
  | .dgram kind, ws => .ok (if ws = [] then .tokEmpty kind else .tokRelay kind ws)
  | .fallback kind, [b] => if b = Config.ack then .ok (.tokFallback kind) else .error .unknownSelector
  | .host, ws => decodeHost ws
  | .address, [a] => .ok (decodeAddress a)
  | .rxWait, _ | .rxAccum _ _ _, _ | .check, _ | .dispatch, _ | .policy, _ | .resp, _ | .fallback _, _ | .address, _ =>
    .error .wrongLength

/-- The word of an operation in its space (spec/30 R51, R60, R61, R65; spec/opcode_table.json). The word of an
operation that takes no operand word (CHK.COMPUTE, ACK.DECIDE, TOK.EMPTY) is empty. -/
def encode : Instr → List Byte
  | .syncSkip b => [b]
  | .syncStart => [Config.start]
  | .accOversize b => [b]
  | .accShort b => [b]
  | .accPartial b => [b]
  | .accComplete b => [b]
  | .chkCompute => []
  | .chkMatch v => [v, v]
  | .chkQuirk => [Config.start, Config.quirkChk]
  | .chkFail computed stored => [computed, stored]
  | .frameRtoken h a k => [Config.start, h, a, Config.cmdRtoken, 0, k]
  | .frameWtoken h a k => [Config.start, h, a, Config.cmdWtoken, 0, k]
  | .frameData h a c p k => Config.start :: h :: a :: c :: BitVec.ofNat 8 p.length :: (p ++ [k])
  | .dispatchData => [0]
  | .dispatchToken => [1]
  | .dispatchChkfail => [2]
  | .dispatchInvalid => [3]
  | .ackDecide => []
  | .ackSend => [Config.ack]
  | .nakSend => [Config.nak]
  | .txseq d => d
  | .tokMatch h a kind k => [Config.start, h, a, kind.command, 0, k]
  | .tokRelay _ d => d
  | .tokFallback _ => [Config.ack]
  | .tokEmpty _ => []
  | .cfgWrite f v => [0, f.number, v]
  | .rdqPush d => 1 :: d
  | .wrqPush d => 2 :: d
  | .reset => [3]
  | .stop => [4]
  | .addrSms40 => [Config.addrSms40]
  | .addrRmu40 => [Config.addrRmu40]
  | .addrModbus40 => [Config.addrModbus40]
  | .addrOther a => [a]

/-- The operation belongs to the space: the row's format and its condition on what selects it beside its word, as
spec/10_state.md R13 and spec/30 R59 tabulate them (conditions side by side, not in an order of tests). -/
def Space.Fits (sp : Space) : Instr → Prop
  | .syncSkip b => sp = .rxWait ∧ b ≠ 0x5C
  | .syncStart => sp = .rxWait
  | .accOversize _ => ∃ maxFrame idx need, sp = .rxAccum maxFrame idx need ∧ maxFrame ≤ idx
  | .accShort _ => ∃ maxFrame idx need, sp = .rxAccum maxFrame idx need ∧ idx < maxFrame ∧ idx + 1 < 6
  | .accPartial _ =>
    ∃ maxFrame idx need, sp = .rxAccum maxFrame idx need ∧ idx < maxFrame ∧ 6 ≤ idx + 1 ∧ idx + 1 < need
  | .accComplete _ =>
    ∃ maxFrame idx need, sp = .rxAccum maxFrame idx need ∧ idx < maxFrame ∧ 6 ≤ idx + 1 ∧ need ≤ idx + 1
  | .chkCompute | .chkMatch _ | .chkQuirk => sp = .check
  | .chkFail computed stored => sp = .check ∧ computed ≠ stored ∧ ¬(computed = 0x5C ∧ stored = 0xC5)
  | .frameRtoken _ a _ | .frameWtoken _ a _ => sp = .frame a
  | .frameData _ a c p _ =>
    ∃ own, sp = .frame own ∧ p.length ≤ 255 ∧ ¬(a = own ∧ p.length = 0 ∧ (c = 0x69 ∨ c = 0x6B))
  | .tokMatch _ _ _ _ => sp = .recognizer
  | .dispatchData | .dispatchToken | .dispatchChkfail | .dispatchInvalid => sp = .dispatch
  | .ackDecide => sp = .policy
  | .ackSend | .nakSend => sp = .resp
  | .txseq d => sp = .seq ∧ d ≠ []
  | .tokRelay kind d => sp = .dgram kind ∧ d ≠ []
  | .tokEmpty kind => sp = .dgram kind
  | .tokFallback kind => sp = .fallback kind
  | .cfgWrite f v => sp = .host ∧ f.admits v = true
  | .rdqPush _ | .wrqPush _ | .reset | .stop => sp = .host
  | .addrSms40 | .addrRmu40 | .addrModbus40 => sp = .address
  | .addrOther a => sp = .address ∧ a ≠ 0x16 ∧ a ≠ 0x19 ∧ a ≠ 0x20

/-- The `n` bytes of a number, the most significant first: a row's word as spec/opcode_table.json numbers its bits
(its FRAME rows put byte 0 at bits 39:32; notes/assumptions/12.md). -/
def bytesOf (w : Nat) : Nat → List Byte
  | 0 => []
  | n + 1 => BitVec.ofNat 8 (w / 256 ^ n) :: bytesOf w n

/-- A frame's first five or more bytes made whole: cut or filled with 0x00 to `length + 6` bytes (R56). -/
def wholeFrame (ws : List Byte) : List Byte :=
  let need := zext (ws.getD 4 0) + 6
  ws.take need ++ List.replicate (need - ws.length) 0x00

/-- The space and the word of a row of spec/opcode_table.json given as `nbits` bits `w`. The table gives no
format beside the bits, so the rows with every bit fixed come first, and a frame is read by the gateway it is
addressed to (notes/assumptions/12.md). -/
def tableWord (nbits w : Nat) : Option (Space × List Byte) :=
  let ws := bytesOf w (nbits / 8)
  match ws with
  | [] => none
  | [b] =>
    if b = Config.ack ∨ b = Config.nak then some (.resp, ws)
    else if b = Config.addrSms40 ∨ b = Config.addrRmu40 ∨ b = Config.addrModbus40 then some (.address, ws)
    else some (.rxWait, ws)
  | [_, _] => some (.check, ws)
  | _ :: _ :: a :: _ :: _ :: _ => some (.frame a, wholeFrame ws)
  | _ => none

/-- The operation the decoder reads from a row's word. -/
def decodeTableWord (nbits w : Nat) : Option Instr :=
  match tableWord nbits w with
  | none => none
  | some (sp, ws) => (decode sp ws).toOption

end Sys2Proof
end

