-- ==== Sys2Proof/Machine/State.lean ====
section
/-! DEFINITION. The state of the block and of the spaces around it as plain data, the reasons a step stops, and the
state after reset (spec/10_state.md, spec/20_memory.md, spec/70 R170). -/

namespace Sys2Proof.Machine

/-- The byte memory BUF: (index, byte) pairs in one canonical form, see `Mem.wf` (R30, R31). -/
abbrev Mem := List Host.Cell

/-- What a byte of BUF that nothing has written reads as. DESIGN CHOICE, unsafe: the spec leaves it unspecified
and no rule reads such a byte (R10, R24; notes/assumptions/3.md). -/
abbrev Mem.unlisted : Byte := 0#8

/-- The canonical form: indices strictly rising, no entry equal to what an unlisted index reads as. -/
abbrev Mem.wf (m : Mem) : Prop := m.Pairwise (fun x y => x.1 < y.1) ∧ ∀ c ∈ m, c.2 ≠ Mem.unlisted

/-- The decoder state register `dstate` (R11). -/
inductive DecoderState where
  /-- 0, receiving: no frame in progress -/
  | waitStart
  /-- 1, receiving: a start byte was seen -/
  | accum
  /-- 2, terminal: a complete frame, checksum accepted -/
  | frameReady
  /-- 3, terminal: a complete frame, checksum rejected -/
  | chkFailed
  /-- 4, terminal: accumulation passed MAX_FRAME bytes -/
  | invalid
deriving DecidableEq, Repr

/-- The events of the output trace (R20). -/
inductive Event where
  /-- OUTCOME(c), c the outcome code of R145 -/
  | outcome (c : Nat)
  /-- DIR(1) or DIR(0): `set_direction` -/
  | dir (transmit : Bool)
  /-- WAIT(T_SETTLE) -/
  | wait (t : Nat)
  /-- TX(d): `write(d)` -/
  | tx (d : Datagram)
  /-- FLUSH: `flush()` -/
  | flush
  /-- TOKEN(k) -/
  | token (kind : TokenKind)
  /-- CLAIM(k, d) -/
  | claim (kind : TokenKind) (d : Datagram)
  /-- FRAME_OUT(d, fwd) -/
  | frameOut (d : Datagram) (fwd : Bool)
deriving DecidableEq, Repr

/-- One record of the frame output FOUT (R35). -/
structure FrameRecord where
  bytes : Datagram
  fwd : Bool
deriving DecidableEq, Repr

/-- The acknowledgment decision (R95). -/
inductive AckDecision where
  | sendAck
  | sendNak
  | sendNothing
deriving DecidableEq, Repr

/-- A move of one agent between two steps of the block (R125). MODEL's own, notes/assumptions/7.md. -/
inductive Turn where
  /-- the block takes the step that is enabled, or idles -/
  | block
  /-- the bus appends one byte to the tail of RXQ -/
  | busByte (b : Byte)
  /-- the host performs the operation of these words (space `host`) -/
  | host (ws : List Byte)
  /-- the host consumes the oldest record of FOUT -/
  | consume
deriving DecidableEq, Repr

/-- The value of a pure operation run alone. MODEL's own, notes/assumptions/10.md. -/
inductive Answer where
  /-- CHK.COMPUTE: `calc` -/
  | computed (b : Byte)
  /-- CHK.MATCH, CHK.QUIRK, CHK.FAIL: accept or reject -/
  | verdict (accept : Bool)
  /-- ACK.DECIDE: the decision, or none where the token arbiter decides (R97) -/
  | decision (d : Option AckDecision)
  /-- TOK.MATCH: the token's kind, or none where `is_token()` is false -/
  | token (kind : Option TokenKind)
  /-- ADDR.*: whether the address passes `should_ack` -/
  | admits (ok : Bool)
deriving DecidableEq, Repr

/-- The whole state. Field by field with its rule in INVENTORY.md under State. -/
structure State where
  /-- the frame buffer (R10) -/
  buf : Mem
  /-- the decoder state (R11) -/
  dstate : DecoderState
  /-- the frame position (R12) -/
  idx : Nat
  /-- the configuration record (R15) -/
  cfg : Cfg
  /-- direction control, true = transmit (R17) -/
  de : Bool
  /-- run control (R18) -/
  stopped : Bool
  /-- the output trace, oldest first (R19) -/
  out : List Event
  /-- RXQ, oldest byte first (R32) -/
  rxq : List Byte
  /-- TXS: bytes handed to the transport that have not left it (R22 (b), R33) -/
  txs : List Byte
  /-- RDQ, oldest datagram first (R34) -/
  rdq : List Datagram
  /-- WRQ, oldest datagram first (R34) -/
  wrq : List Datagram
  /-- FOUT: the records the host has not consumed, oldest first (R35) -/
  fout : List FrameRecord
  /-- the parameters of R5, constant over every step (notes/assumptions/1.md) -/
  params : Params
  /-- MODEL's own: the pending moves of the agents, oldest first (notes/assumptions/7.md) -/
  agenda : List Turn
  /-- MODEL's own: a component operation presented alone (notes/assumptions/9.md) -/
  probe : Option (Space × List Byte)
  /-- MODEL's own: the value of the last pure operation run alone (notes/assumptions/10.md) -/
  answer : Option Answer
deriving DecidableEq, Repr

/-- Why the machine stops with a fault. -/
inductive Fault where
  /-- an access to an index of BUF that does not exist, MAX_FRAME or more (R10); raised by every meaning that
  reads or writes BUF; safe: no state that a run from reset reaches raises it (notes/assumptions/5.md) -/
  | bufIndex
deriving DecidableEq, Repr

/-- Why the model gives a presented word or operation no meaning. -/
inductive Refusal where
  /-- no meaning yet; no arm of exec uses it; safe -/
  | notModelled (mnemonic : String)
  /-- an operation presented where its rule's condition does not hold (R70 `require`, R78, spec/93 U13); raised by
  every meaning that has a condition; safe (notes/assumptions/19.md) -/
  | notEnabled
  /-- a word that is no operation of its space; raised by step for a host or probe word; safe
  (notes/assumptions/11.md) -/
  | undecodable (e : DecodeError)
  /-- CFG.WRITE of a value wider than its field (R133 `a value of its width`); raised by CFG.WRITE; safe
  (notes/assumptions/20.md) -/
  | valueTooWide
  /-- MAX_FRAME below 6 or T_SETTLE 0 (R5, spec/93 U26); raised by step; safe (notes/assumptions/6.md) -/
  | illegalParameter
deriving DecidableEq, Repr

/-- The machine right after RESET (R24, R170) with empty spaces around it. `cfg` is CFG_INIT. -/
def State.reset : State where
  buf := []
  dstate := .waitStart
  idx := 0
  cfg := Config.defaults.cfgInit
  de := false
  stopped := false
  out := []
  rxq := []
  txs := []
  rdq := []
  wrq := []
  fout := []
  params := Config.defaults
  agenda := []
  probe := none
  answer := none

/-- The three outcomes of an operation. -/
abbrev Result := Host.Outcome State Fault Refusal

end Sys2Proof.Machine
end

