-- ==== Sys2Proof/Machine/Ops.lean ====
section
/-! DEFINITION. The named operations over BUF, the registers and the spaces; the transmit sequence; entering a
terminal outcome (the block's taking of an exception, spec/60 R149) and the return from it (R130, R150). -/

namespace Sys2Proof.Machine

/-- The byte at an index of BUF. -/
def Mem.read : Mem → Nat → Byte
  | [], _ => Mem.unlisted
  | (a, v) :: m, i => if i = a then v else Mem.read m i

/-- Store a byte, keeping the canonical form. -/
def Mem.write : Mem → Nat → Byte → Mem
  | [], i, v => if v = Mem.unlisted then [] else [(i, v)]
  | (a, w) :: m, i, v =>
    if i < a then (if v = Mem.unlisted then (a, w) :: m else (i, v) :: (a, w) :: m)
    else if i = a then (if v = Mem.unlisted then m else (i, v) :: m)
    else (a, w) :: Mem.write m i v

/-- `bytes[a .. a + n - 1]`, lowest index first (R7). -/
def Mem.slice (m : Mem) (a : Nat) : Nat → List Byte
  | 0 => []
  | n + 1 => m.read a :: Mem.slice m (a + 1) n

/-- Store a list of bytes from an index up. -/
def Mem.load (m : Mem) (a : Nat) : List Byte → Mem
  | [] => m
  | b :: bs => Mem.load (m.write a b) (a + 1) bs

/-- Run `f` on the next state of `r`; a fault or a refusal stands. -/
def andThen (r : Result) (f : State → Result) : Result :=
  match r with
  | .next s => f s
  | .fault e => .fault e
  | .refused e => .refused e

/-- The operation runs only where its condition holds (R70 `require`). -/
def requires (p : Prop) [Decidable p] (r : Result) : Result :=
  if p then r else .refused .notEnabled

/-- An access to BUF with highest index `i`: the index must exist (R10). -/
def State.reaches (s : State) (i : Nat) (r : Result) : Result :=
  if i < s.params.maxFrame then r else .fault .bufIndex

/-- `emit E` (R8). -/
def State.emit (s : State) (e : Event) : State := { s with out := s.out ++ [e] }

/-- `buf[idx] <- b ; idx <- idx + 1` (R74 to R76). -/
def State.append (s : State) (b : Byte) : State :=
  { s with buf := s.buf.write s.idx b, idx := s.idx + 1 }

/-- `set_direction(transmit)`: the bit `de` and its event (R17, R20). -/
def State.setDirection (s : State) (transmit : Bool) : State :=
  { s with de := transmit, out := s.out ++ [.dir transmit] }

/-- One settle delay (R20). -/
def State.settle (s : State) : State := s.emit (.wait s.params.tSettle)

/-- `MemWrite(TXS, len(d), d) ; emit TX(d)` (R8, R100). -/
def State.transmit (s : State) (d : Datagram) : State :=
  { s with txs := s.txs ++ d, out := s.out ++ [.tx d] }

/-- `flush()`: every byte handed over has left the transport (R20, R42). -/
def State.flushTx (s : State) : State := { s with txs := [], out := s.out ++ [.flush] }

/-- The transmit sequence without its precondition (R100). -/
def State.sent (s : State) (d : Datagram) : State :=
  (((((s.setDirection true).settle).transmit d).flushTx).settle).setDirection false

/-- TXSEQ(d): requires `de == 0` and `len(d) >= 1` (R100). -/
def txSequence (d : Datagram) (s : State) : Result :=
  requires (s.de = false ∧ d ≠ []) (.next (s.sent d))

/-- The queue of a token kind (R111). -/
def State.queue (s : State) : TokenKind → List Datagram
  | .read => s.rdq
  | .write => s.wrq

/-- Replace the queue of a token kind. -/
def State.setQueue (s : State) (kind : TokenKind) (q : List Datagram) : State :=
  match kind with
  | .read => { s with rdq := q }
  | .write => { s with wrq := q }

/-- The claim of the oldest datagram `d`, `rest` what stays in the queue (R39, R112). -/
def State.claimed (s : State) (kind : TokenKind) (d : Datagram) (rest : List Datagram) : State :=
  (s.setQueue kind rest).emit (.claim kind d)

/-- A record appended to FOUT, with its event (R35, R126). -/
def State.handOn (s : State) (d : Datagram) (fwd : Bool) : State :=
  { s with fout := s.fout ++ [⟨d, fwd⟩], out := s.out ++ [.frameOut d fwd] }

/-- The outcome code of a decoder state (R14, R145). -/
def DecoderState.outcomeCode : DecoderState → Nat
  | .waitStart | .accum => 0
  | .frameReady => 1
  | .invalid => 2
  | .chkFailed => 3

/-- Entering a terminal outcome (R149): nothing is saved or masked, `dstate` takes the terminal value and
`OUTCOME(c)` is emitted; `buf` and `idx` keep what they hold. -/
def State.enter (s : State) (d : DecoderState) : State :=
  { s with dstate := d, out := s.out ++ [.outcome d.outcomeCode] }

/-- The return from a terminal outcome, the common tail of every DISPATCH (R130, R150). -/
def State.resume (s : State) : State := { s with idx := 0, dstate := .waitStart }

/-- The value of a pure operation run alone (notes/assumptions/10.md). -/
def State.answering (s : State) (a : Answer) : State := { s with answer := some a }

/-- The block may take RX steps in the decoder state `d` (R70). -/
abbrev State.Receiving (s : State) (d : DecoderState) : Prop := s.stopped = false ∧ s.dstate = d

end Sys2Proof.Machine
end

