-- ==== Sys2Proof/Machine/Operands.lean ====
section
/-! DEFINITION. The operand forms: the indices and ranges of BUF a rule reads (spec/20 R31, spec/30 R51, spec/44
R142) and the frame words the FRAME rows name. -/

namespace Sys2Proof.Machine

/-- `buf[1]`, hdr1 (R53). -/
def State.hdr1 (s : State) : Byte := s.buf.read 1

/-- `buf[2]`, address (R54). -/
def State.addr (s : State) : Byte := s.buf.read Config.idxAddr

/-- `buf[3]`, command (R55). -/
def State.cmd (s : State) : Byte := s.buf.read Config.idxCmd

/-- `L = zext(buf[4])` of a frame buffer (R56). -/
def Mem.len (m : Mem) : Nat := zext (m.read Config.idxLen)

/-- `L = zext(buf[4])` (R56). -/
def State.len (s : State) : Nat := s.buf.len

/-- `need = zext(buf[4]) + 6`, on natural numbers (R56). -/
def State.need (s : State) : Nat := s.len + Config.overhead

/-- `XOR(i = 1 .. L+4) buf[i]`, CHK.COMPUTE's result (R85). -/
def Mem.computed (m : Mem) : Byte := xorAll (m.slice 1 (m.len + 4))

/-- `stored = buf[L + 5]` (R86). -/
def Mem.stored (m : Mem) : Byte := m.read (m.len + 5)

/-- `bytes[0 .. idx-1]`: the bytes of the frame in progress (R77). -/
def State.frameBytes (s : State) : List Byte := s.buf.slice 0 s.idx

/-- How many bytes of the frame the frame output takes (R66). -/
def State.frameOutLength (s : State) : Nat :=
  match s.params.fwdFormat with
  | .full => s.len + 6
  | .noChecksum => s.len + 5

/-- The bytes `d` of `FRAME_OUT(d, fwd)` (R66, R132). -/
def State.frameOutBytes (s : State) : Datagram := s.buf.slice 0 s.frameOutLength

/-- `MemRead(RXQ, 1)`: the oldest byte and what stays (R8, R32). -/
def State.takeByte (s : State) : Option (Byte × State) :=
  match s.rxq with
  | [] => none
  | b :: rest => some (b, { s with rxq := rest })

/-- What selects the operation of a received byte beside the byte (R13, R70). -/
def State.rxSpace (s : State) : Space :=
  match s.dstate with
  | .accum => .rxAccum s.params.maxFrame s.idx s.need
  | .waitStart | .frameReady | .chkFailed | .invalid => .rxWait

end Sys2Proof.Machine
end

