-- ==== Sys2Proof/Machine/Flags.lean ====
section
/-! DEFINITION. The conditions the block computes: outcome, checksum verdict, address filter, decision table, token
pattern, forwarding scope. None of them is stored (spec/10 R14, R23). -/

namespace Sys2Proof.Machine

/-- The outcome of an RX step as a code, a function of the decoder state after it (R14, R145). -/
def State.outcome (s : State) : Nat := s.dstate.outcomeCode

/-- The error classes of R145 that the block has. -/
inductive ErrorClass where
  /-- E1, raised by ACC.OVERSIZE -/
  | framingError
  /-- E2, raised by ACC.COMPLETE on verdict reject -/
  | checksumError
  /-- E4, raised by STOP -/
  | signalInterrupt
deriving DecidableEq, Repr

/-- The error class a state shows, if any (R145). -/
def State.errorClass (s : State) : Option ErrorClass :=
  if s.stopped then some .signalInterrupt
  else match s.dstate with
    | .invalid => some .framingError
    | .chkFailed => some .checksumError
    | .waitStart | .accum | .frameReady => none

/-- The verdict on a pair (calc, stored): CHK.MATCH or CHK.QUIRK accepts, CHK.FAIL rejects (R87 to R89). -/
def verdict (computed stored : Byte) : Bool :=
  computed == stored || (computed == Config.start && stored == Config.quirkChk)

/-- `chk_accept()` on a frame buffer (R90). -/
def Mem.chkAccept (m : Mem) : Bool := verdict m.computed m.stored

/-- `should_ack(a)` (R96). -/
def shouldAck (cfg : Cfg) (a : Byte) : Bool :=
  cfg.sendAcknowledge &&
    (cfg.ackAll
      || (a == Config.addrModbus40 && cfg.ackModbus40)
      || (a == Config.addrSms40 && cfg.ackSms40)
      || (a == Config.addrRmu40 && cfg.ackRmu40))

/-- `should_ack(buf[2])` in a state. -/
def State.acks (s : State) : Bool := shouldAck s.cfg s.addr

/-- The kind a command byte names, if it is a token command (R111). -/
def kindOfCommand (c : Byte) : Option TokenKind :=
  if c = Config.cmdRtoken then some .read else if c = Config.cmdWtoken then some .write else none

/-- The token a state presents: its kind where `is_token()` holds (R110, R111). -/
def State.tokenKind (s : State) : Option TokenKind :=
  if s.dstate = .frameReady ∧ s.addr = s.cfg.ownAddress ∧ s.buf.read Config.idxLen = 0 then kindOfCommand s.cmd
  else none

/-- `is_token()` (R110). -/
def State.isToken (s : State) : Bool := s.tokenKind.isSome

/-- The decision table of R97; `none` where the token arbiter decides, and where no outcome is pending. -/
def State.ackDecision (s : State) : Option AckDecision :=
  match s.dstate with
  | .chkFailed => some (if s.acks then .sendNak else .sendNothing)
  | .frameReady => if s.isToken then none else some (if s.acks then .sendAck else .sendNothing)
  | .invalid => some .sendNothing
  | .waitStart | .accum => none

/-- `fwd_scope(a)` (R131). -/
def fwdScope (cfg : Cfg) (a : Byte) : Bool := cfg.forwardAll || a == cfg.ownAddress

/-- The buffer holds exactly this frame word, dispatch of a complete accepted frame pending (R59, R149). -/
abbrev State.HoldsFrame (s : State) (ws : List Byte) : Prop := s.dstate = .frameReady ∧ s.frameBytes = ws

end Sys2Proof.Machine
end

