-- ==== Sys2Proof/Machine/Checksum.lean ====
section
/-! DEFINITION. The checksum validator's operations run alone: CHK.* (spec/41 R85 to R90). Their value stands in
`answer` (notes/assumptions/10.md); ACC.COMPLETE uses the same functions. -/

namespace Sys2Proof.Machine

/-- CHK.COMPUTE (R85), on a buffer that holds a whole frame (R90: `idx == L + 6 <= MAX_FRAME`). -/
def execChkCompute (s : State) : Result :=
  requires (s.idx = s.need) (s.reaches (s.len + 5) (.next (s.answering (.computed s.buf.computed))))

/-- CHK.MATCH (R87). -/
def execChkMatch (v : Byte) (s : State) : Result := .next (s.answering (.verdict (verdict v v)))

/-- CHK.QUIRK (R88). -/
def execChkQuirk (s : State) : Result :=
  .next (s.answering (.verdict (verdict Config.start Config.quirkChk)))

/-- CHK.FAIL (R89). -/
def execChkFail (computed stored : Byte) (s : State) : Result :=
  requires (computed ≠ stored ∧ ¬(computed = Config.start ∧ stored = Config.quirkChk))
    (.next (s.answering (.verdict (verdict computed stored))))

end Sys2Proof.Machine
end

