-- ==== Sys2Proof/Machine/Acknowledge.lean ====
section
/-! DEFINITION. The acknowledgment policy, the two responses, the transmit sequence and the address filter's entries
(spec/42 R95 to R104). -/

namespace Sys2Proof.Machine

/-- ACK.DECIDE (R97), for a pending terminal outcome. -/
def execAckDecide (s : State) : Result :=
  requires (s.dstate ≠ .waitStart ∧ s.dstate ≠ .accum)
    (s.reaches Config.idxLen (.next (s.answering (.decision s.ackDecision))))

/-- The transmission of the byte 0x06, used by ACK.SEND, DISPATCH.DATA and the fallback (R98). -/
def sendAck (s : State) : Result := txSequence [Config.ack] s

/-- The transmission of the byte 0x15, used by NAK.SEND and DISPATCH.CHKFAIL (R99). -/
def sendNak (s : State) : Result := txSequence [Config.nak] s

/-- ACK if the filter admits the address of the frame, else nothing (R97, R114). -/
def ackAdmitted (s : State) : Result := if s.acks then sendAck s else .next s

/-- NAK if the filter admits the address of the frame, else nothing (R97). -/
def nakAdmitted (s : State) : Result := if s.acks then sendNak s else .next s

/-- ACK.SEND (R98). -/
def execAckSend (s : State) : Result := sendAck s

/-- NAK.SEND (R99). -/
def execNakSend (s : State) : Result := sendNak s

/-- TXSEQ(d) (R100). -/
def execTxseq (d : Datagram) (s : State) : Result := txSequence d s

/-- ADDR.SMS40 (R96). -/
def execAddrSms40 (s : State) : Result := .next (s.answering (.admits (shouldAck s.cfg Config.addrSms40)))

/-- ADDR.RMU40 (R96). -/
def execAddrRmu40 (s : State) : Result := .next (s.answering (.admits (shouldAck s.cfg Config.addrRmu40)))

/-- ADDR.MODBUS40 (R96). -/
def execAddrModbus40 (s : State) : Result := .next (s.answering (.admits (shouldAck s.cfg Config.addrModbus40)))

/-- ADDR.OTHER (R96). -/
def execAddrOther (a : Byte) (s : State) : Result :=
  requires (a ≠ Config.addrSms40 ∧ a ≠ Config.addrRmu40 ∧ a ≠ Config.addrModbus40)
    (.next (s.answering (.admits (shouldAck s.cfg a))))

end Sys2Proof.Machine
end

