-- ==== Sys2Proof/Machine/Token.lean ====
section
/-! DEFINITION. The token recognizer and the token arbiter: TOK.* and `handle_token` (spec/43 R110 to R119). -/

namespace Sys2Proof.Machine

/-- The fallback: ACK if the filter admits the frame's address, else nothing (R114). -/
def fallback (s : State) : Result := ackAdmitted s

/-- What the arbiter does with a claimed datagram: relay it, or fall back when it is empty (R112, R113, R116). -/
def relay (d : Datagram) (s : State) : Result := if d = [] then fallback s else txSequence d s

/-- `handle_token(kind)` (R112). -/
def handleToken (kind : TokenKind) (s : State) : Result :=
  match s.queue kind with
  | [] => fallback s
  | d :: rest => relay d (s.claimed kind d rest)

/-- The arbiter is called for a token of this kind: only inside the DISPATCH of a token frame (R112, R117). -/
abbrev State.Granted (s : State) (kind : TokenKind) : Prop := s.stopped = false ∧ s.tokenKind = some kind

/-- TOK.MATCH (R110, R111), on the frame the buffer holds, which occupies the indices 0 to 5. -/
def execTokMatch (hdr1 addr : Byte) (kind : TokenKind) (chk : Byte) (s : State) : Result :=
  requires (s.frameBytes = encode (.tokMatch hdr1 addr kind chk))
    (s.reaches 5 (.next (s.answering (.token s.tokenKind))))

/-- TOK.RELAY (R113) with the claim of R112: the operand is the oldest datagram of the kind's queue. -/
def execTokRelay (kind : TokenKind) (d : Datagram) (s : State) : Result :=
  requires (s.Granted kind ∧ (s.queue kind).head? = some d ∧ d ≠ [])
    (s.reaches 5 (txSequence d (s.claimed kind d (s.queue kind).tail)))

/-- TOK.FALLBACK (R114): nothing is queued for the kind. -/
def execTokFallback (kind : TokenKind) (s : State) : Result :=
  requires (s.Granted kind ∧ s.queue kind = []) (s.reaches 5 (fallback s))

/-- TOK.EMPTY (R116) with the claim of R112: the oldest datagram has length 0. -/
def execTokEmpty (kind : TokenKind) (s : State) : Result :=
  requires (s.Granted kind ∧ (s.queue kind).head? = some [])
    (s.reaches 5 (fallback (s.claimed kind [] (s.queue kind).tail)))

end Sys2Proof.Machine
end

