-- ==== Sys2Proof/Machine/FrameDispatch.lean ====
section
/-! DEFINITION. The DISPATCH step for each terminal state and the frame classes (spec/44 R126 to R132, spec/30 R59).
-/

namespace Sys2Proof.Machine

/-- The dispatch of an accepted frame that is no token (R126): ACK under the filter, then the frame output. -/
def dispatchFrame (s : State) : Result :=
  s.reaches (s.len + 5)
    (andThen (ackAdmitted s)
      (fun t => .next (t.handOn s.frameOutBytes (fwdScope s.cfg s.addr)).resume))

/-- The dispatch of a token frame, which occupies the indices 0 to 5 (R127). -/
def dispatchGrant (kind : TokenKind) (s : State) : Result :=
  s.reaches 5 (andThen (handleToken kind (s.emit (.token kind))) (fun t => .next t.resume))

/-- DISPATCH.DATA (R126). -/
def execDispatchData (s : State) : Result :=
  requires (s.stopped = false ∧ s.dstate = .frameReady ∧ s.isToken = false) (dispatchFrame s)

/-- DISPATCH.TOKEN (R127). -/
def execDispatchToken (s : State) : Result :=
  match s.tokenKind with
  | some kind => requires (s.stopped = false) (dispatchGrant kind s)
  | none => .refused .notEnabled

/-- DISPATCH.CHKFAIL (R128). -/
def execDispatchChkfail (s : State) : Result :=
  requires (s.stopped = false ∧ s.dstate = .chkFailed)
    (s.reaches Config.idxAddr
      (andThen (nakAdmitted s) (fun t => .next t.resume)))

/-- DISPATCH.INVALID (R129). -/
def execDispatchInvalid (s : State) : Result :=
  requires (s.stopped = false ∧ s.dstate = .invalid) (.next s.resume)

/-- FRAME.RTOKEN (R59, R127): the frame in the buffer, addressed to the gateway, is dispatched as a read-token. -/
def execFrameRtoken (hdr1 addr chk : Byte) (s : State) : Result :=
  requires (s.stopped = false ∧ s.HoldsFrame (encode (.frameRtoken hdr1 addr chk)) ∧ addr = s.cfg.ownAddress)
    (dispatchGrant .read s)

/-- FRAME.WTOKEN (R59, R127): the same for a write-token. -/
def execFrameWtoken (hdr1 addr chk : Byte) (s : State) : Result :=
  requires (s.stopped = false ∧ s.HoldsFrame (encode (.frameWtoken hdr1 addr chk)) ∧ addr = s.cfg.ownAddress)
    (dispatchGrant .write s)

/-- FRAME.DATA (R59, R126): the frame in the buffer, no token for this gateway, is dispatched as data. -/
def execFrameData (hdr1 addr cmd : Byte) (payload : Datagram) (chk : Byte) (s : State) : Result :=
  requires (s.stopped = false ∧ s.HoldsFrame (encode (.frameData hdr1 addr cmd payload chk)) ∧ s.isToken = false)
    (dispatchFrame s)

end Sys2Proof.Machine
end

