-- ==== Sys2Proof/Machine/HostOps.lean ====
section
/-! DEFINITION. The host's operations: CFG.WRITE, RDQ.PUSH, WRQ.PUSH, RESET, STOP (spec/44 R133 to R136, spec/70
R170, spec/60 R154). -/

namespace Sys2Proof.Machine

/-- `cfg.field <- v`, for a value of the field's width: 0 or 1 for a 1-bit field (R15, R133). -/
def writeField (cfg : Cfg) (v : Byte) : CfgField → Cfg
  | .sendAcknowledge => { cfg with sendAcknowledge := v == 1 }
  | .ackAll => { cfg with ackAll := v == 1 }
  | .ackModbus40 => { cfg with ackModbus40 := v == 1 }
  | .ackSms40 => { cfg with ackSms40 := v == 1 }
  | .ackRmu40 => { cfg with ackRmu40 := v == 1 }
  | .forwardAll => { cfg with forwardAll := v == 1 }
  | .ownAddress => { cfg with ownAddress := v }

/-- CFG.WRITE(field, v) (R133). -/
def execCfgWrite (field : CfgField) (v : Byte) (s : State) : Result :=
  if field.admits v then .next { s with cfg := writeField s.cfg v field } else .refused .valueTooWide

/-- RDQ.PUSH(d) (R134). -/
def execRdqPush (d : Datagram) (s : State) : Result := .next { s with rdq := s.rdq ++ [d] }

/-- WRQ.PUSH(d) (R134). -/
def execWrqPush (d : Datagram) (s : State) : Result := .next { s with wrq := s.wrq ++ [d] }

/-- RESET (R170): `buf` is not written, the spaces of the transports are not touched (R172). -/
def execReset (s : State) : Result :=
  .next { s with dstate := .waitStart, idx := 0, de := false, stopped := false, cfg := s.params.cfgInit, out := [] }

/-- STOP (R154). -/
def execStop (s : State) : Result := .next { s with stopped := true, idx := 0, dstate := .waitStart }

end Sys2Proof.Machine
end

