-- ==== Sys2Proof/Machine/Receive.lean ====
section
/-! DEFINITION. Byte synchronisation and frame accumulation: SYNC.* and ACC.* (spec/40 R71 to R76). The byte has
been taken out of RXQ by the step that selects the operation (R70). -/

namespace Sys2Proof.Machine

/-- SYNC.SKIP (R71). -/
def execSyncSkip (b : Byte) (s : State) : Result :=
  requires (s.Receiving .waitStart ∧ b ≠ Config.start) (.next s)

/-- SYNC.START (R72). -/
def execSyncStart (s : State) : Result :=
  requires (s.Receiving .waitStart)
    (s.reaches 0 (.next { s with buf := s.buf.write 0 Config.start, idx := 1, dstate := .accum }))

/-- ACC.OVERSIZE (R73): the byte is dropped, FramingError is raised. -/
def execAccOversize (_b : Byte) (s : State) : Result :=
  requires (s.Receiving .accum ∧ s.params.maxFrame ≤ s.idx) (.next (s.enter .invalid))

/-- ACC.SHORT (R74). -/
def execAccShort (b : Byte) (s : State) : Result :=
  requires (s.Receiving .accum ∧ s.idx < s.params.maxFrame ∧ s.idx + 1 < Config.overhead) (.next (s.append b))

/-- ACC.PARTIAL (R75). -/
def execAccPartial (b : Byte) (s : State) : Result :=
  requires (s.Receiving .accum ∧ s.idx < s.params.maxFrame ∧ Config.overhead ≤ s.idx + 1 ∧ s.idx + 1 < s.need)
    (.next (s.append b))

/-- The judgement of a frame whose last byte has been appended (R76). -/
def State.judged (s : State) : State := s.enter (if s.buf.chkAccept then .frameReady else .chkFailed)

/-- ACC.COMPLETE (R76): the verdict is taken on the buffer after the append. -/
def execAccComplete (b : Byte) (s : State) : Result :=
  requires (s.Receiving .accum ∧ s.idx < s.params.maxFrame ∧ Config.overhead ≤ s.idx + 1 ∧ s.need ≤ s.idx + 1)
    (.next (s.append b).judged)

end Sys2Proof.Machine
end

