-- ==== Sys2Proof/Machine/Dispatch.lean ====
section
/-! DEFINITION. One arm per operation, each one call of its meaning. -/

namespace Sys2Proof.Machine

def exec (i : Instr) (s : State) : Host.Outcome State Fault Refusal :=
  match i with
  | .syncSkip b => Sys2Proof.Machine.execSyncSkip b s
  | .syncStart => Sys2Proof.Machine.execSyncStart s
  | .accOversize b => Sys2Proof.Machine.execAccOversize b s
  | .accShort b => Sys2Proof.Machine.execAccShort b s
  | .accPartial b => Sys2Proof.Machine.execAccPartial b s
  | .accComplete b => Sys2Proof.Machine.execAccComplete b s
  | .chkCompute => Sys2Proof.Machine.execChkCompute s
  | .chkMatch v => Sys2Proof.Machine.execChkMatch v s
  | .chkQuirk => Sys2Proof.Machine.execChkQuirk s
  | .chkFail computed stored => Sys2Proof.Machine.execChkFail computed stored s
  | .frameRtoken hdr1 addr chk => Sys2Proof.Machine.execFrameRtoken hdr1 addr chk s
  | .frameWtoken hdr1 addr chk => Sys2Proof.Machine.execFrameWtoken hdr1 addr chk s
  | .frameData hdr1 addr cmd payload chk => Sys2Proof.Machine.execFrameData hdr1 addr cmd payload chk s
  | .dispatchData => Sys2Proof.Machine.execDispatchData s
  | .dispatchToken => Sys2Proof.Machine.execDispatchToken s
  | .dispatchChkfail => Sys2Proof.Machine.execDispatchChkfail s
  | .dispatchInvalid => Sys2Proof.Machine.execDispatchInvalid s
  | .ackDecide => Sys2Proof.Machine.execAckDecide s
  | .ackSend => Sys2Proof.Machine.execAckSend s
  | .nakSend => Sys2Proof.Machine.execNakSend s
  | .txseq d => Sys2Proof.Machine.execTxseq d s
  | .tokMatch hdr1 addr kind chk => Sys2Proof.Machine.execTokMatch hdr1 addr kind chk s
  | .tokRelay kind d => Sys2Proof.Machine.execTokRelay kind d s
  | .tokFallback kind => Sys2Proof.Machine.execTokFallback kind s
  | .tokEmpty kind => Sys2Proof.Machine.execTokEmpty kind s
  | .cfgWrite field v => Sys2Proof.Machine.execCfgWrite field v s
  | .rdqPush d => Sys2Proof.Machine.execRdqPush d s
  | .wrqPush d => Sys2Proof.Machine.execWrqPush d s
  | .reset => Sys2Proof.Machine.execReset s
  | .stop => Sys2Proof.Machine.execStop s
  | .addrSms40 => Sys2Proof.Machine.execAddrSms40 s
  | .addrRmu40 => Sys2Proof.Machine.execAddrRmu40 s
  | .addrModbus40 => Sys2Proof.Machine.execAddrModbus40 s
  | .addrOther a => Sys2Proof.Machine.execAddrOther a s

end Sys2Proof.Machine
end

