-- ==== Sys2Proof/Machine/Fetch.lean ====
section
/-! DEFINITION. What the next step runs: the step relation of spec/44 R125. -/

namespace Sys2Proof.Machine

/-- What a step finds to do. -/
inductive Fetched where
  /-- an operation, and the state it runs on: its words are taken out of where they stood -/
  | run (i : Instr) (s : State)
  /-- a move of the environment, or no step enabled: no operation runs and this is the next state -/
  | settled (s : State)
  /-- a word that is no operation of its space -/
  | bad (e : DecodeError)

/-- The fetch of a word read in a space. -/
def fetchWord (sp : Space) (ws : List Byte) (s : State) : Fetched :=
  match decode sp ws with
  | .ok i => .run i s
  | .error e => .bad e

/-- The DISPATCH operation a pending frame selects (R126, R127). -/
def State.frameOp (s : State) : Instr := if s.isToken then .dispatchToken else .dispatchData

/-- The block's step (R125): RX in a receiving state with a byte waiting, DISPATCH in a terminal state, neither
when stopped; where none is enabled the block idles and nothing changes. -/
def fetchBlock (s : State) : Fetched :=
  if s.stopped then .settled s
  else match s.dstate with
    | .waitStart | .accum =>
      match s.takeByte with
      | none => .settled s
      | some (b, t) => fetchWord s.rxSpace [b] t
    | .frameReady => .run s.frameOp s
    | .chkFailed => .run .dispatchChkfail s
    | .invalid => .run .dispatchInvalid s

/-- One move of the agenda, already taken off it (R125). -/
def fetchTurn (s : State) : Turn → Fetched
  | .block => fetchBlock s
  | .busByte b => .settled { s with rxq := s.rxq ++ [b] }
  | .host ws => fetchWord .host ws s
  | .consume => .settled { s with fout := s.fout.tail }

/-- What the next step runs: a component operation presented alone, else the agenda's oldest move, else the
block's own step (notes/assumptions/7.md, notes/assumptions/9.md). -/
def fetch (s : State) : Fetched :=
  match s.probe with
  | some (sp, ws) => fetchWord sp ws { s with probe := none }
  | none =>
    match s.agenda with
    | [] => fetchBlock s
    | t :: rest => fetchTurn { s with agenda := rest } t

/-- Put a word where the next step fetches it: a received byte at the head of RXQ with the decoder waiting for a
start byte; a frame into BUF, complete and accepted, for the gateway it is addressed to; any other word into the
probe (notes/assumptions/13.md). -/
def State.place (s : State) : Space → List Byte → State
  | .rxWait, ws =>
    { s with probe := none, agenda := [], stopped := false, dstate := .waitStart, rxq := ws ++ s.rxq }
  | .frame own, ws =>
    { s with
      probe := some (.frame own, ws), stopped := false, dstate := .frameReady, idx := ws.length,
      buf := s.buf.load 0 ws, cfg := { s.cfg with ownAddress := own } }
  | sp, ws => { s with probe := some (sp, ws) }

end Sys2Proof.Machine
end

