-- ==== Sys2Proof/Machine/Step.lean ====
section
/-! DEFINITION. One step of the machine: fetch, then run (spec/44 R125). -/

namespace Sys2Proof.Machine

/-- One step. Parameters outside their legal range are refused (R5, spec/93 U26). -/
def step (s : State) : Host.Outcome State Fault Refusal :=
  if s.params.Legal then
    match fetch s with
    | .run i t => exec i t
    | .settled t => .next t
    | .bad e => .refused (.undecodable e)
  else .refused .illegalParameter

/-- The state with a row's word stored where the next step fetches it. -/
def State.withFetchWord (s : State) (nbits w : Nat) : State :=
  match tableWord nbits w with
  | none => s
  | some (sp, ws) => s.place sp ws

end Sys2Proof.Machine
end

