-- ==== Sys2Proof/Safety.lean ====
section
/-! DEFINITION. The terms claims are stated in: whose move a step is, the invariants of spec/10_state.md R25, the
canonical form of BUF, the grammar of the output trace (spec/42 R101, spec/43 R117), and runs. -/

namespace Sys2Proof.Machine

/-- The block moves at `s`, on the state `u`: no operation is presented alone, and the agenda is empty or gives the
block its turn. -/
abbrev BlockMoves (s u : State) : Prop :=
  s.params.Legal ∧ s.probe = none ∧
    ((s.agenda = [] ∧ u = s) ∨ (s.agenda.head? = some .block ∧ u = { s with agenda := s.agenda.tail }))

/-- The decoder is in a state in which the block takes bytes (R70). -/
abbrev State.Receives (s : State) : Prop := s.dstate = .waitStart ∨ s.dstate = .accum

/-- No block step is enabled (R139). -/
abbrev State.Quiescent (s : State) : Prop := s.stopped = true ∨ (s.Receives ∧ s.rxq = [])

/-- The invariants (1) to (7) of R25. -/
structure State.FrameInv (s : State) : Prop where
  wait_idx : s.dstate = .waitStart → s.idx = 0
  accum_idx : s.dstate = .accum → 1 ≤ s.idx ∧ s.idx ≤ s.params.maxFrame ∧ s.buf.read 0 = 0x5C
  accum_need : s.dstate = .accum → 6 ≤ s.idx → s.idx < zext (s.buf.read 4) + 6
  complete : s.dstate = .frameReady ∨ s.dstate = .chkFailed →
    s.idx = zext (s.buf.read 4) + 6 ∧ 6 ≤ s.idx ∧ s.idx ≤ s.params.maxFrame ∧ s.buf.read 0 = 0x5C
  invalid_idx : s.dstate = .invalid → s.idx = s.params.maxFrame
  receiving : s.de = false
  stopped_idle : s.stopped = true → s.dstate = .waitStart ∧ s.idx = 0

/-- BUF is in its canonical form and holds no index that does not exist (R10). -/
abbrev State.BufferOk (s : State) : Prop := s.buf.wf ∧ ∀ c ∈ s.buf, c.1 < s.params.maxFrame

/-- The six events of a transmit sequence for `d` with settle delay `t` (R100). -/
def bracket (t : Nat) (d : Datagram) : List Event :=
  [.dir true, .wait t, .tx d, .flush, .wait t, .dir false]

/-- The lists the block hands to the serial transport in a trace, in order (R33). -/
def transmissions : List Event → List Datagram
  | [] => []
  | .tx d :: es => d :: transmissions es
  | _ :: es => transmissions es

/-- What the token arbiter leaves in the trace for a token of kind `k`, given the queue of the kind and whether the
address passes the filter: relay, fallback, or the claim of an empty datagram and then the fallback (R112 to R116). -/
def arbiterEvents (t : Nat) (k : TokenKind) (ack : Bool) : List Datagram → List Event
  | [] => if ack then bracket t [0x06] else []
  | d :: _ => .claim k d :: (if d ≠ [] then bracket t d else if ack then bracket t [0x06] else [])

/-- Whether the arbiter transmits anything. -/
def arbiterSends (ack : Bool) : List Datagram → Bool
  | [] => ack
  | d :: _ => !d.isEmpty || ack

/-- The value of a configuration field as a byte, 0 or 1 for a 1-bit field (R15). -/
def fieldValue (cfg : Cfg) : CfgField → Byte
  | .sendAcknowledge => if cfg.sendAcknowledge then 1 else 0
  | .ackAll => if cfg.ackAll then 1 else 0
  | .ackModbus40 => if cfg.ackModbus40 then 1 else 0
  | .ackSms40 => if cfg.ackSms40 then 1 else 0
  | .ackRmu40 => if cfg.ackRmu40 then 1 else 0
  | .forwardAll => if cfg.forwardAll then 1 else 0
  | .ownAddress => cfg.ownAddress

/-- The state presents a token of kind `k` to the gateway (R110, R111). -/
abbrev State.Presents (s : State) (k : TokenKind) : Prop :=
  s.dstate = .frameReady ∧ s.buf.read 2 = s.cfg.ownAddress ∧ s.buf.read 4 = 0x00 ∧
    ((k = .read ∧ s.buf.read 3 = 0x69) ∨ (k = .write ∧ s.buf.read 3 = 0x6B))

/-- The acceptance condition on the frame in a buffer (R90). -/
abbrev Mem.Accepts (m : Mem) : Prop :=
  xorAll (m.slice 1 (zext (m.read 4) + 4)) = m.read (zext (m.read 4) + 5) ∨
    (xorAll (m.slice 1 (zext (m.read 4) + 4)) = 0x5C ∧ m.read (zext (m.read 4) + 5) = 0xC5)

/-- The outcomes recorded in a trace. -/
def outcomes : List Event → List Nat
  | [] => []
  | .outcome c :: es => c :: outcomes es
  | _ :: es => outcomes es

/-- The traces the block may leave, with the outcome code still to be dispatched: each outcome is answered at most
once, an accepted data frame by an optional ACK and its record, a token by at most one claim and one bracket, a
checksum failure by an optional NAK, an Invalid by nothing (R97, R101, R112 to R117, R126 to R129). -/
inductive Trace (t : Nat) : Option Nat → List Event → Prop where
  | start : Trace t none []
  | outcome {es : List Event} (c : Nat) : Trace t none es → c = 1 ∨ c = 2 ∨ c = 3 → Trace t (some c) (es ++ [.outcome c])
  | invalid {es : List Event} : Trace t (some 2) es → Trace t none es
  | failed {es : List Event} : Trace t (some 3) es → Trace t none es
  | failedNak {es : List Event} : Trace t (some 3) es → Trace t none (es ++ bracket t [0x15])
  | data {es : List Event} (d : Datagram) (fwd : Bool) :
      Trace t (some 1) es → Trace t none (es ++ [.frameOut d fwd])
  | dataAck {es : List Event} (d : Datagram) (fwd : Bool) :
      Trace t (some 1) es → Trace t none (es ++ (bracket t [0x06] ++ [.frameOut d fwd]))
  | token {es : List Event} (k : TokenKind) : Trace t (some 1) es → Trace t none (es ++ [.token k])
  | tokenAck {es : List Event} (k : TokenKind) :
      Trace t (some 1) es → Trace t none (es ++ (.token k :: bracket t [0x06]))
  | tokenRelay {es : List Event} (k : TokenKind) (d : Datagram) : d ≠ [] →
      Trace t (some 1) es → Trace t none (es ++ (.token k :: .claim k d :: bracket t d))
  | tokenEmpty {es : List Event} (k : TokenKind) :
      Trace t (some 1) es → Trace t none (es ++ [.token k, .claim k []])
  | tokenEmptyAck {es : List Event} (k : TokenKind) :
      Trace t (some 1) es → Trace t none (es ++ (.token k :: .claim k [] :: bracket t [0x06]))

/-- The outcome code a decoder state leaves to be dispatched. -/
def DecoderState.pending : DecoderState → Option Nat
  | .waitStart | .accum => none
  | .frameReady => some 1
  | .invalid => some 2
  | .chkFailed => some 3

/-- The trace of a state is one the block may leave; after STOP an outcome may stay unanswered (R154). -/
def State.TraceOk (s : State) : Prop :=
  if s.stopped then ∃ p, Trace s.params.tSettle p s.out else Trace s.params.tSettle s.dstate.pending s.out

/-- `t` is `s` but for the bytes of BUF that are not of the frame in progress (R10, R84). -/
abbrev SameFrame (s t : State) : Prop := t = { s with buf := t.buf } ∧ ∀ i < s.idx, t.buf.read i = s.buf.read i

/-- The state with another MAX_FRAME (R5). -/
def State.withMaxFrame (s : State) (m : Nat) : State := { s with params := { s.params with maxFrame := m } }

/-- `n` steps, stopping at a fault or a refusal. -/
def run : Nat → State → Result
  | 0, s => .next s
  | n + 1, s => andThen (step s) (run n)

end Sys2Proof.Machine
end

