-- ==== Sys2Proof/Certificates/Slice0/Obligations.lean ====
section
/-! DEFINITION. The statements for the provers. `log n` is notes/assumptions/n.md. -/

open Sys2Proof Sys2Proof.Machine

/-! Encoding and decoding. -/

/-- Every operation that belongs to a space is what the decoder of that space reads from its word (spec/30 R51, R59,
R60; spec/10 R13). The words of the HOST, STEP and POLICY spaces are the model's (log 11). -/
def Obligations.DecodeEncodeAgree : Prop :=
  ∀ (sp : Space) (i : Instr), sp.Fits i → decode sp (encode i) = .ok i

/-- A word that decodes is the word of the operation it decodes to, and the operation belongs to the space: no bit
of a word is dropped and no word has two meanings. -/
def Obligations.DecodedWordReencodes : Prop :=
  ∀ (sp : Space) (ws : List Byte) (i : Instr), decode sp ws = .ok i → encode i = ws ∧ sp.Fits i

/-- Words written out from the spec's encodings decode to the rows they stand for (spec/30 R51, R60, R65; spec/40
R71, R72; spec/41 R88). -/
def Obligations.SampleWordsDecode : Prop :=
  decode .rxWait [0x5C] = .ok .syncStart ∧ decode .rxWait [0x06] = .ok (.syncSkip 0x06) ∧
  decode (.rxAccum 128 5 6) [0x4B] = .ok (.accComplete 0x4B) ∧
  decode .check [0x5C, 0xC5] = .ok .chkQuirk ∧
  decode (.frame 0x20) [0x5C, 0x00, 0x20, 0x6B, 0x00, 0x4B] = .ok (.frameWtoken 0x00 0x20 0x4B) ∧
  decode (.frame 0x20) [0x5C, 0x00, 0x19, 0x60, 0x00, 0x79] = .ok (.frameData 0x00 0x19 0x60 [] 0x79) ∧
  decode .resp [0x15] = .ok .nakSend ∧ decode .address [0x16] = .ok .addrSms40

/-- R70: whatever the position of the decoder, a received byte selects exactly one operation. -/
def Obligations.ReceivedByteSelectsOneOperation : Prop :=
  ∀ (sp : Space) (b : Byte), (sp = .rxWait ∨ ∃ maxFrame idx need, sp = .rxAccum maxFrame idx need) →
    ∃ i, (sp.Fits i ∧ encode i = [b]) ∧ ∀ j, sp.Fits j ∧ encode j = [b] → j = i

/-- R59: a complete accepted frame is of exactly one class, for every own address of the gateway. -/
def Obligations.FrameHasOneClass : Prop :=
  ∀ (own h a c k : Byte) (p : Datagram), p.length ≤ 255 →
    ∃ i, (Space.Fits (.frame own) i ∧ encode i = encode (.frameData h a c p k)) ∧
      ∀ j, Space.Fits (.frame own) j ∧ encode j = encode (.frameData h a c p k) → j = i

/-! The step. -/

/-- A step runs the operation it decodes: the block's RX step on the oldest byte of RXQ, its DISPATCH step by the
terminal state, a host operation by its words, and a component operation presented alone by its word (R70, R125;
the agenda and the probe are the model's, log 7, log 9). -/
def Obligations.StepRunsDecodedOperation : Prop :=
  (∀ (s u : State) (b : Byte) (rest : List Byte) (i : Instr), BlockMoves s u → u.stopped = false → u.Receives →
    u.rxq = b :: rest → decode u.rxSpace [b] = .ok i → step s = exec i { u with rxq := rest }) ∧
  (∀ (s u : State), BlockMoves s u → u.stopped = false → u.dstate = .frameReady →
    step s = if u.isToken then exec .dispatchToken u else exec .dispatchData u) ∧
  (∀ (s u : State), BlockMoves s u → u.stopped = false → u.dstate = .chkFailed → step s = exec .dispatchChkfail u) ∧
  (∀ (s u : State), BlockMoves s u → u.stopped = false → u.dstate = .invalid → step s = exec .dispatchInvalid u) ∧
  (∀ (s : State) (ws : List Byte) (rest : List Turn) (i : Instr), s.params.Legal → s.probe = none →
    s.agenda = .host ws :: rest → decode .host ws = .ok i → step s = exec i { s with agenda := rest }) ∧
  (∀ (s : State) (sp : Space) (ws : List Byte) (i : Instr), s.params.Legal → s.probe = some (sp, ws) →
    decode sp ws = .ok i → step s = exec i { s with probe := none })

/-- When no block step is enabled the block's turn changes nothing (R125, R139; that an idle turn is a step that
changes nothing is the model's, log 8). -/
def Obligations.IdleTurnChangesNothing : Prop :=
  ∀ (s u : State), BlockMoves s u → u.Quiescent → step s = .next u

/-- The bus appends one byte to the tail of RXQ (R30, R32, R125), and the host consumes a record of FOUT (R35, R137);
nothing else changes. That these are moves of the agenda is the model's (log 7), and so is that the host takes the
oldest record and, from an empty FOUT, nothing (log 15). -/
def Obligations.EnvironmentMoves : Prop :=
  (∀ (s : State) (b : Byte) (rest : List Turn), s.params.Legal → s.probe = none → s.agenda = .busByte b :: rest →
    step s = .next { s with agenda := rest, rxq := s.rxq ++ [b] }) ∧
  (∀ (s : State) (rest : List Turn), s.params.Legal → s.probe = none → s.agenda = .consume :: rest →
    step s = .next { s with agenda := rest, fout := s.fout.drop 1 })

/-! Reception. -/

/-- R71. -/
def Obligations.SyncSkipChangesNothing : Prop :=
  ∀ (s : State) (b : Byte), s.stopped = false → s.dstate = .waitStart → b ≠ 0x5C →
    exec (.syncSkip b) s = .next s ∧ s.outcome = 0

/-- R72: 0x5C at index 0, `idx` 1, state ACCUM; every other byte of BUF and every other part of the state stays. -/
def Obligations.SyncStartBeginsFrame : Prop :=
  ∀ (s : State), s.stopped = false → s.dstate = .waitStart → s.buf.wf → 0 < s.params.maxFrame →
    ∃ t, exec .syncStart s = .next t ∧ t = { s with buf := t.buf, idx := 1, dstate := .accum } ∧
      (∀ a, t.buf.read a = if a = 0 then 0x5C else s.buf.read a) ∧ t.outcome = 0

/-- R73: a byte that finds MAX_FRAME bytes stored raises Invalid, is not stored, and moves nothing. That the byte is
dropped and not looked at again is the spec's decision D7. -/
def Obligations.OversizeRaisesInvalid : Prop :=
  ∀ (s : State) (b : Byte), s.stopped = false → s.dstate = .accum → s.params.maxFrame ≤ s.idx →
    exec (.accOversize b) s = .next { s with dstate := .invalid, out := s.out ++ [.outcome 2] }

/-- R74: the byte goes to `buf[idx]`, `idx` moves on, nothing else changes. -/
def Obligations.ShortAppendsByte : Prop :=
  ∀ (s : State) (b : Byte), s.stopped = false → s.dstate = .accum → s.buf.wf → s.idx < s.params.maxFrame →
    s.idx + 1 < 6 →
    ∃ t, exec (.accShort b) s = .next t ∧ t = { s with buf := t.buf, idx := s.idx + 1 } ∧
      (∀ a, t.buf.read a = if a = s.idx then b else s.buf.read a) ∧ t.outcome = 0

/-- R75: the same while fewer than `length + 6` bytes have arrived. -/
def Obligations.PartialAppendsByte : Prop :=
  ∀ (s : State) (b : Byte), s.stopped = false → s.dstate = .accum → s.buf.wf → s.idx < s.params.maxFrame →
    6 ≤ s.idx + 1 → s.idx + 1 < zext (s.buf.read 4) + 6 →
    ∃ t, exec (.accPartial b) s = .next t ∧ t = { s with buf := t.buf, idx := s.idx + 1 } ∧
      (∀ a, t.buf.read a = if a = s.idx then b else s.buf.read a) ∧ t.outcome = 0

/-- R76, R90: the last byte is stored and the frame judged on the buffer after the append; the terminal state is
entered with its outcome code, and nothing else changes. -/
def Obligations.CompleteJudgesFrame : Prop :=
  ∀ (s : State) (b : Byte), s.stopped = false → s.dstate = .accum → s.buf.wf → s.idx < s.params.maxFrame →
    6 ≤ s.idx + 1 → zext (s.buf.read 4) + 6 ≤ s.idx + 1 →
    ∃ t, exec (.accComplete b) s = .next t ∧
      (∀ a, t.buf.read a = if a = s.idx then b else s.buf.read a) ∧
      (t.buf.Accepts → t = { s with
        buf := t.buf, idx := s.idx + 1, dstate := .frameReady, out := s.out ++ [.outcome 1] }) ∧
      (¬t.buf.Accepts → t = { s with
        buf := t.buf, idx := s.idx + 1, dstate := .chkFailed, out := s.out ++ [.outcome 3] })

/-- Where the invariants of R25 hold, a frame that completes has exactly `length + 6` bytes (spec/40 section 4). -/
def Obligations.FrameEndsAtItsLength : Prop :=
  ∀ (s t : State) (b : Byte), s.BufferOk → s.FrameInv → exec (.accComplete b) s = .next t →
    t.idx = zext (t.buf.read 4) + 6

/-- R70, R78: no byte is taken in a terminal state or when stopped: every operation on a received byte is not
enabled there (a refusal of the model, log 19). -/
def Obligations.NoReceptionWhenTerminal : Prop :=
  ∀ (s : State) (b : Byte), (s.stopped = true ∨ ¬s.Receives) →
    exec (.syncSkip b) s = .refused .notEnabled ∧ exec .syncStart s = .refused .notEnabled ∧
    exec (.accOversize b) s = .refused .notEnabled ∧ exec (.accShort b) s = .refused .notEnabled ∧
    exec (.accPartial b) s = .refused .notEnabled ∧ exec (.accComplete b) s = .refused .notEnabled

/-! The checksum validator. -/

/-- CHK.COMPUTE run alone answers the exclusive OR of `buf[1 .. L+4]` and changes nothing else (R85; the field that
holds the answer is the model's, log 10). -/
def Obligations.ComputeAnswersXor : Prop :=
  ∀ (s : State), s.idx = zext (s.buf.read 4) + 6 → s.idx ≤ s.params.maxFrame →
    exec .chkCompute s = .next { s with
      answer := some (.computed (xorAll ((List.range (zext (s.buf.read 4) + 4)).map fun i => s.buf.read (i + 1)))) }

/-- CHK.MATCH and CHK.QUIRK accept and CHK.FAIL rejects (R87 to R89; the field that holds the verdict is the
model's, log 10). -/
def Obligations.VerdictsOfCheck : Prop :=
  ∀ (s : State),
    (∀ v, exec (.chkMatch v) s = .next { s with answer := some (.verdict true) }) ∧
    exec .chkQuirk s = .next { s with answer := some (.verdict true) } ∧
    (∀ c k, c ≠ k → ¬(c = 0x5C ∧ k = 0xC5) →
      exec (.chkFail c k) s = .next { s with answer := some (.verdict false) })

/-- The verdict on a buffer in the two equivalent forms of R90: the exclusive OR of the whole range with the stored
byte is 0x00, or the range gives 0x5C and the stored byte is 0xC5, and then the exclusive OR is 0x99. -/
def Obligations.VerdictByWholeXor : Prop :=
  ∀ (m : Mem), m.chkAccept = true ↔
    xorAll (m.slice 1 (zext (m.read 4) + 5)) = 0x00 ∨
      (m.read (zext (m.read 4) + 5) = 0xC5 ∧ xorAll (m.slice 1 (zext (m.read 4) + 5)) = 0x99)

/-- A single flipped bit anywhere in `buf[1 .. L+5]` but the length byte turns an accepted frame into a rejected one
(spec/41 R89, inferred there). -/
def Obligations.SingleBitFlipIsRejected : Prop :=
  ∀ (m : Mem) (j n : Nat), m.wf → m.chkAccept = true → 1 ≤ j → j ≤ zext (m.read 4) + 5 → j ≠ 4 → n < 8 →
    (m.write j (m.read j ^^^ (1#8 <<< n))).chkAccept = false

/-! The acknowledgment policy and the transmit sequence. -/

/-- R96: the address filter. -/
def Obligations.AddressFilterRule : Prop :=
  ∀ (cfg : Cfg) (a : Byte), shouldAck cfg a = true ↔
    cfg.sendAcknowledge = true ∧
      (cfg.ackAll = true ∨ (a = 0x20 ∧ cfg.ackModbus40 = true) ∨ (a = 0x16 ∧ cfg.ackSms40 = true) ∨
        (a = 0x19 ∧ cfg.ackRmu40 = true))

/-- The four entries of the address filter run alone answer whether the address passes: the flag of its identity or
`ackAll`, under `sendAcknowledge` (R96; the field that holds the answer is the model's, log 10). -/
def Obligations.AddressEntriesAnswerFilter : Prop :=
  ∀ (s : State),
    exec .addrSms40 s = .next { s with
      answer := some (.admits (s.cfg.sendAcknowledge && (s.cfg.ackAll || s.cfg.ackSms40))) } ∧
    exec .addrRmu40 s = .next { s with
      answer := some (.admits (s.cfg.sendAcknowledge && (s.cfg.ackAll || s.cfg.ackRmu40))) } ∧
    exec .addrModbus40 s = .next { s with
      answer := some (.admits (s.cfg.sendAcknowledge && (s.cfg.ackAll || s.cfg.ackModbus40))) } ∧
    (∀ a, a ≠ 0x16 → a ≠ 0x19 → a ≠ 0x20 → exec (.addrOther a) s = .next { s with
      answer := some (.admits (s.cfg.sendAcknowledge && s.cfg.ackAll)) })

/-- ACK.DECIDE run alone answers the decision table of R97, for every terminal outcome (the field that holds the
answer is the model's, log 10; that it answers no decision for a token and SendNothing for Invalid is the model's
reading of the table, log 24, the latter by the spec's decision D21). -/
def Obligations.DecisionTable : Prop :=
  ∀ (s : State), 4 < s.params.maxFrame →
    (s.dstate = .chkFailed → exec .ackDecide s = .next { s with
      answer := some (.decision (some (if shouldAck s.cfg (s.buf.read 2) then .sendNak else .sendNothing))) }) ∧
    (s.dstate = .frameReady → (¬∃ k, s.Presents k) → exec .ackDecide s = .next { s with
      answer := some (.decision (some (if shouldAck s.cfg (s.buf.read 2) then .sendAck else .sendNothing))) }) ∧
    ((∃ k, s.Presents k) → exec .ackDecide s = .next { s with answer := some (.decision none) }) ∧
    (s.dstate = .invalid → exec .ackDecide s = .next { s with answer := some (.decision (some .sendNothing)) })

/-- ACK.SEND, NAK.SEND and TXSEQ leave the six events of the bracket around 0x06, 0x15 or the list, empty the
transport, and change nothing else; `de` is 0 before and after (R98 to R100; the order inside the bracket is the
spec's decision D11; TXS as the bytes not yet sent is the model's, log 14). -/
def Obligations.TransmitBracket : Prop :=
  ∀ (s : State), s.de = false →
    exec .ackSend s = .next { s with txs := [], out := s.out ++ bracket s.params.tSettle [0x06] } ∧
    exec .nakSend s = .next { s with txs := [], out := s.out ++ bracket s.params.tSettle [0x15] } ∧
    (∀ d, d ≠ [] → exec (.txseq d) s = .next { s with txs := [], out := s.out ++ bracket s.params.tSettle d })

/-- TXSEQ requires `de == 0` and a non-empty list: presented without, it is not enabled (R100; the refusal is the
model's, log 19). -/
def Obligations.TransmitNeedsBytesAndReceive : Prop :=
  ∀ (s : State) (d : Datagram), s.de = true ∨ d = [] → exec (.txseq d) s = .refused .notEnabled

/-! The token recognizer and the token arbiter. -/

/-- TOK.MATCH on the frame the buffer holds answers the token's kind where the outcome is FrameReady and the address
is the gateway's own, else that there is no token (R110, R111; the field that holds the answer is the model's, log
10; `hdr1` is free by the spec's decision D6). -/
def Obligations.TokenRecognized : Prop :=
  ∀ (s : State) (h a k : Byte) (kind : TokenKind), 5 < s.params.maxFrame →
    s.frameBytes = encode (.tokMatch h a kind k) →
    exec (.tokMatch h a kind k) s = .next { s with
      answer := some (.token (if s.dstate = .frameReady ∧ a = s.cfg.ownAddress then some kind else none)) }

/-- TOK.RELAY of the oldest datagram of the token's queue: it is claimed, sent in one bracket and not kept; no ACK
and nothing else changes, whatever `cfg` says of acknowledging (R112, R113; TXS: log 14; the condition under which
it runs alone: log 21). -/
def Obligations.RelaySendsClaimedDatagram : Prop :=
  ∀ (s : State) (kind : TokenKind) (d : Datagram) (q : List Datagram), s.stopped = false → s.Presents kind →
    s.de = false → 5 < s.params.maxFrame → s.queue kind = d :: q → d ≠ [] →
    ∃ t, exec (.tokRelay kind d) s = .next t ∧ t.queue kind = q ∧ (∀ k, k ≠ kind → t.queue k = s.queue k) ∧
      t = { s with
        rdq := t.rdq, wrq := t.wrq, txs := [],
        out := s.out ++ (.claim kind d :: bracket s.params.tSettle d) }

/-- R114: with nothing queued for the kind, ACK if the filter admits the address, else nothing; no datagram is
claimed and nothing else changes. -/
def Obligations.FallbackAcknowledges : Prop :=
  ∀ (s : State) (kind : TokenKind), s.stopped = false → s.Presents kind → s.de = false → 5 < s.params.maxFrame →
    s.queue kind = [] →
    (shouldAck s.cfg (s.buf.read 2) = true → exec (.tokFallback kind) s = .next { s with
      txs := [], out := s.out ++ bracket s.params.tSettle [0x06] }) ∧
    (shouldAck s.cfg (s.buf.read 2) = false → exec (.tokFallback kind) s = .next s)

/-- TOK.EMPTY: an empty datagram is consumed and the fallback follows (R116, the spec's decision D16). -/
def Obligations.EmptyDatagramFallsBack : Prop :=
  ∀ (s : State) (kind : TokenKind) (q : List Datagram), s.stopped = false → s.Presents kind → s.de = false →
    5 < s.params.maxFrame → s.queue kind = [] :: q →
    ∃ t, exec (.tokEmpty kind) s = .next t ∧ t.queue kind = q ∧ (∀ k, k ≠ kind → t.queue k = s.queue k) ∧
      t = { s with
        rdq := t.rdq, wrq := t.wrq, txs := if shouldAck s.cfg (s.buf.read 2) then [] else s.txs,
        out := s.out ++ (.claim kind [] ::
          (if shouldAck s.cfg (s.buf.read 2) then bracket s.params.tSettle [0x06] else [])) }

/-! Dispatch. -/

/-- DISPATCH.TOKEN: the token is recorded, the arbiter acts once, at most one datagram leaves the queue of the
token's kind and none the other, no record is handed on, and the decoder returns to WAIT_START (R112, R119, R127,
R130; the arbiter's three answers are `arbiterEvents`, that an empty datagram is claimed and then the fallback follows
is the spec's decision D16 at R116, log 23; TXS: log 14). -/
def Obligations.TokenIsAnswered : Prop :=
  ∀ (s : State) (kind : TokenKind), s.stopped = false → s.Presents kind → s.de = false → 5 < s.params.maxFrame →
    ∃ t, exec .dispatchToken s = .next t ∧ t.queue kind = (s.queue kind).drop 1 ∧
      (∀ k, k ≠ kind → t.queue k = s.queue k) ∧
      t = { s with
        rdq := t.rdq, wrq := t.wrq, idx := 0, dstate := .waitStart,
        txs := if arbiterSends (shouldAck s.cfg (s.buf.read 2)) (s.queue kind) then [] else s.txs,
        out := s.out ++ (.token kind ::
          arbiterEvents s.params.tSettle kind (shouldAck s.cfg (s.buf.read 2)) (s.queue kind)) }

/-- DISPATCH.DATA: ACK under the filter, then the frame's bytes by FWD_FORMAT with the scope's verdict, then back to
WAIT_START; the buffer, the configuration and the queues stay (R126, R130 to R132; the ACK before the record is the
spec's decision D13, the scope's address its decision D15, the record whatever the scope its decision D29). -/
def Obligations.DataFrameIsHandedOn : Prop :=
  ∀ (s : State), s.stopped = false → s.dstate = .frameReady → (¬∃ k, s.Presents k) → s.de = false →
    zext (s.buf.read 4) + 6 ≤ s.params.maxFrame →
    ∃ (d : Datagram) (fwd : Bool),
      (fwd = true ↔ s.cfg.forwardAll = true ∨ s.buf.read 2 = s.cfg.ownAddress) ∧
      (s.params.fwdFormat = .full → d = s.buf.slice 0 (zext (s.buf.read 4) + 6)) ∧
      (s.params.fwdFormat = .noChecksum → d = s.buf.slice 0 (zext (s.buf.read 4) + 5)) ∧
      exec .dispatchData s = .next { s with
        idx := 0, dstate := .waitStart, fout := s.fout ++ [⟨d, fwd⟩],
        txs := if shouldAck s.cfg (s.buf.read 2) then [] else s.txs,
        out := s.out ++ ((if shouldAck s.cfg (s.buf.read 2) then bracket s.params.tSettle [0x06] else []) ++
          [.frameOut d fwd]) }

/-- DISPATCH.CHKFAIL: NAK if the filter admits the address, no record, no token, no claim, back to WAIT_START (R128,
R130; that TXS is empty after the bracket is the model's, log 14). -/
def Obligations.ChecksumFailureIsAnswered : Prop :=
  ∀ (s : State), s.stopped = false → s.dstate = .chkFailed → s.de = false → 2 < s.params.maxFrame →
    (shouldAck s.cfg (s.buf.read 2) = true → exec .dispatchChkfail s = .next { s with
      idx := 0, dstate := .waitStart, txs := [], out := s.out ++ bracket s.params.tSettle [0x15] }) ∧
    (shouldAck s.cfg (s.buf.read 2) = false → exec .dispatchChkfail s = .next { s with
      idx := 0, dstate := .waitStart })

/-- DISPATCH.INVALID: nothing but the return to WAIT_START (R129, R130); that nothing is transmitted or forwarded is
the spec's decision D21 (R103, log 23). -/
def Obligations.InvalidIsDropped : Prop :=
  ∀ (s : State), s.stopped = false → s.dstate = .invalid →
    exec .dispatchInvalid s = .next { s with idx := 0, dstate := .waitStart }

/-- The frame classes: a read- or write-token frame that the buffer holds is dispatched as a token of its kind, any
other frame as data, and each of the three answers a next state (R59, R126, R127; that the frame must stand in the
buffer is the model's, log 22). -/
def Obligations.FrameClassesAreDispatched : Prop :=
  ∀ (s : State), s.stopped = false → s.dstate = .frameReady → s.de = false → 5 < s.params.maxFrame →
    (∀ h a k, a = s.cfg.ownAddress → s.frameBytes = encode (.frameRtoken h a k) →
      s.Presents .read ∧ exec (.frameRtoken h a k) s = exec .dispatchToken s ∧
        ∃ t, exec (.frameRtoken h a k) s = .next t) ∧
    (∀ h a k, a = s.cfg.ownAddress → s.frameBytes = encode (.frameWtoken h a k) →
      s.Presents .write ∧ exec (.frameWtoken h a k) s = exec .dispatchToken s ∧
        ∃ t, exec (.frameWtoken h a k) s = .next t) ∧
    (∀ h a c p k, Space.Fits (.frame s.cfg.ownAddress) (.frameData h a c p k) → s.idx ≤ s.params.maxFrame →
      s.frameBytes = encode (.frameData h a c p k) →
      (¬∃ kind, s.Presents kind) ∧ exec (.frameData h a c p k) s = exec .dispatchData s ∧
        ∃ t, exec (.frameData h a c p k) s = .next t)

/-! The host's operations. -/

/-- CFG.WRITE of a value of the field's width writes that field and nothing else, in every state; a value that is
wider is refused (R15, R133; the spec's decision D10; the refusal is the model's, log 20). -/
def Obligations.ConfigurationWrite : Prop :=
  ∀ (s : State) (f : CfgField) (v : Byte),
    ((f = .ownAddress ∨ v = 0 ∨ v = 1) → ∃ t, exec (.cfgWrite f v) s = .next t ∧ t = { s with cfg := t.cfg } ∧
      fieldValue t.cfg f = v ∧ ∀ g, g ≠ f → fieldValue t.cfg g = fieldValue s.cfg g) ∧
    (f ≠ .ownAddress → v ≠ 0 → v ≠ 1 → exec (.cfgWrite f v) s = .refused .valueTooWide)

/-- R134: a datagram is appended at the tail of its queue, in every state, and nothing else changes. -/
def Obligations.QueuePushAppends : Prop :=
  ∀ (s : State) (d : Datagram),
    exec (.rdqPush d) s = .next { s with rdq := s.rdq ++ [d] } ∧
    exec (.wrqPush d) s = .next { s with wrq := s.wrq ++ [d] }

/-- RESET: the decoder waits for a start byte, the direction is receive, the block runs, `cfg` is CFG_INIT and the
trace is empty; the buffer, the queues and the frame output stay (R170, R172; the values of `idx`, `de`, `stopped`
are the spec's decision D19). -/
def Obligations.ResetEffect : Prop :=
  ∀ (s : State), exec .reset s = .next { s with
    dstate := .waitStart, idx := 0, de := false, stopped := false, cfg := s.params.cfgInit, out := [] }

/-- STOP: the block stops, and what was being received or waited for its dispatch is discarded with nothing emitted
(R154; for a pending outcome the spec's decision D20). -/
def Obligations.StopDiscardsFrame : Prop :=
  ∀ (s : State), exec .stop s = .next { s with stopped := true, idx := 0, dstate := .waitStart }

/-- While `stopped` is 1 the block takes no step and only RESET clears it (R18); only STOP sets it (R154, inferred).
That the stopped block's turn is a step that changes nothing is the model's (log 8). -/
def Obligations.StoppedUntilReset : Prop :=
  (∀ (s u : State), BlockMoves s u → u.stopped = true → step s = .next u) ∧
  (∀ (i : Instr) (s t : State), exec i s = .next t →
    (s.stopped = true → i ≠ .reset → t.stopped = true) ∧ (s.stopped = false → i ≠ .stop → t.stopped = false) ∧
    (i = .reset → t.stopped = false) ∧ (i = .stop → t.stopped = true))

/-! Invariants. -/

/-- Every step keeps the invariants (1) to (7) of spec/10_state.md section 9, which the spec infers from its rules. -/
def Obligations.FrameInvariantKept : Prop :=
  ∀ (s t : State), s.BufferOk → s.FrameInv → step s = .next t → t.FrameInv

/-- The invariants hold after reset. -/
def Obligations.FrameInvariantAtReset : Prop := State.reset.FrameInv

/-- Every step keeps BUF in its canonical form and within its indices (R10; the form is the model's, log 3). -/
def Obligations.BufferFormKept : Prop :=
  ∀ (s t : State), s.BufferOk → step s = .next t → t.BufferOk

/-- The values of R24 after reset, the parameters at the defaults of R5, BUF in its canonical form; `cfg` is
CFG_INIT, whose value here is the model's (log 2), as is the form of BUF (log 3). -/
def Obligations.ResetValues : Prop :=
  State.reset.dstate = .waitStart ∧ State.reset.idx = 0 ∧ State.reset.de = false ∧ State.reset.stopped = false ∧
  State.reset.out = [] ∧ State.reset.cfg = State.reset.params.cfgInit ∧ State.reset.params.maxFrame = 128 ∧
  State.reset.params.fwdFormat = .full ∧ State.reset.BufferOk

/-- Every step keeps the output trace within the grammar `Trace`: what the block transmits answers an outcome, once,
inside one bracket, and a datagram leaves only on a token (spec/42 R101, spec/43 R117, inferred there; the order of
events and the answers to an empty datagram, to STOP and to Invalid are the spec's decisions D11, D13, D16, D20, D21,
log 23; a step that runs an operation presented alone is left out, log 9). -/
def Obligations.TraceGrammarKept : Prop :=
  ∀ (s t : State), s.probe = none → s.TraceOk → step s = .next t → t.TraceOk ∧ t.probe = none

/-- The trace after reset, the empty one, is in the grammar (R24). -/
def Obligations.TraceGrammarAtReset : Prop := State.reset.TraceOk

/-- After every step from a state whose trace is in the grammar (`TraceGrammarKept`), what the block has transmitted
since reset is 0x06, 0x15 or a non-empty datagram its trace claims, and there are no more transmissions than outcomes
(R33, R101 (b) and (f); a step that runs an operation presented alone is left out, log 9). -/
def Obligations.TransmissionsAreGranted : Prop :=
  ∀ (s t : State), s.probe = none → s.TraceOk → step s = .next t →
    (∀ d ∈ transmissions t.out, d = [0x06] ∨ d = [0x15] ∨ (d ≠ [] ∧ ∃ k, Event.claim k d ∈ t.out)) ∧
    (transmissions t.out).length ≤ (outcomes t.out).length

/-! Rules over all operations. -/

/-- No operation but CFG.WRITE and RESET changes `cfg`, and none changes a parameter or the moves still pending
(R16, R155, R5). -/
def Obligations.ConfigurationIsTheHosts : Prop :=
  ∀ (i : Instr) (s t : State), exec i s = .next t →
    t.params = s.params ∧ t.agenda = s.agenda ∧ t.probe = s.probe ∧ t.rxq = s.rxq ∧
    (i ≠ .reset → (∀ f v, i ≠ .cfgWrite f v) → t.cfg = s.cfg)

/-- A datagram leaves a queue only at a token of its kind, the oldest one and no other, and enters it only by a push
of the host (R34, R39, R112, R117). -/
def Obligations.QueuesMoveByTokenOrPush : Prop :=
  ∀ (i : Instr) (s t : State), exec i s = .next t →
    (t.rdq = s.rdq ∨ (∃ d, i = .rdqPush d ∧ t.rdq = s.rdq ++ [d]) ∨ (s.Presents .read ∧ ∃ d, s.rdq = d :: t.rdq)) ∧
    (t.wrq = s.wrq ∨ (∃ d, i = .wrqPush d ∧ t.wrq = s.wrq ++ [d]) ∨ (s.Presents .write ∧ ∃ d, s.wrq = d :: t.wrq))

/-- BUF is written only by SYNC.START, at index 0 in WAIT_START, and by ACC.SHORT, ACC.PARTIAL and ACC.COMPLETE, at
`idx` in ACCUM, one byte a step and not when stopped (R10, R72, R74 to R76; BUF in its form: log 3). -/
def Obligations.BufferWrittenByReceptionOnly : Prop :=
  ∀ (i : Instr) (s t : State), s.buf.wf → exec i s = .next t →
    t.buf = s.buf ∨
    (i = .syncStart ∧ s.stopped = false ∧ s.dstate = .waitStart ∧ ∀ a, a ≠ 0 → t.buf.read a = s.buf.read a) ∨
    ((∃ b, i = .accShort b ∨ i = .accPartial b ∨ i = .accComplete b) ∧ s.stopped = false ∧ s.dstate = .accum ∧
      ∀ a, a ≠ s.idx → t.buf.read a = s.buf.read a)

/-- A step leaves the receive stream as it is, takes its oldest byte while receiving, or finds one byte appended
(R32, R70, R78, R125; a byte of the bus is a move of the agenda, log 7). -/
def Obligations.ReceiveStreamInOrder : Prop :=
  ∀ (s t : State), step s = .next t →
    t.rxq = s.rxq ∨ (s.stopped = false ∧ s.Receives ∧ ∃ b, s.rxq = b :: t.rxq) ∨ (∃ b, t.rxq = s.rxq ++ [b])

/-- An operation only adds events to the trace, at most one transmission among them, and leaves the direction at
receive; RESET alone empties the trace (R19, R101 (a) and (b)). -/
def Obligations.AtMostOneTransmission : Prop :=
  ∀ (i : Instr) (s t : State), i ≠ .reset → exec i s = .next t →
    ∃ es, t.out = s.out ++ es ∧ (transmissions es).length ≤ 1 ∧ (s.de = false → t.de = false)

/-! Runs of the block with the bus and the host silent (`agenda` empty, log 7) and no operation presented alone
(`probe` none, log 9): what stands in RXQ and in the queues at the start is all that comes. -/

/-- With the bus and the host silent (log 7) and no operation presented alone (log 9), bytes that are not 0x5C, seen
in WAIT_START, are taken one a step and change nothing else, however many there are (spec/40 section 4, inferred there
from R71). -/
def Obligations.NoiseIsSkipped : Prop :=
  ∀ (n : Nat) (s : State), s.params.Legal → s.probe = none → s.agenda = [] → s.stopped = false →
    s.dstate = .waitStart → n ≤ s.rxq.length → (∀ b ∈ s.rxq.take n, b ≠ 0x5C) →
    run n s = .next { s with rxq := s.rxq.drop n }

/-- With the bus and the host silent (log 7) and no operation presented alone (log 9), a frame that fits MAX_FRAME,
whatever its bytes, is taken whole in `length + 6` steps and no byte behind it is taken; the buffer then holds exactly
it, and the outcome is the one its checksum earns (R51, R56, R63, R76, R80, R90). -/
def Obligations.FrameIsReceivedWhole : Prop :=
  ∀ (s : State) (h a c k : Byte) (p : Datagram) (rest : List Byte), s.params.Legal → s.probe = none →
    s.agenda = [] → s.stopped = false → s.dstate = .waitStart → s.buf.wf → p.length ≤ 255 →
    p.length + 6 ≤ s.params.maxFrame → s.rxq = encode (.frameData h a c p k) ++ rest →
    ∃ t, run (p.length + 6) s = .next t ∧ t.frameBytes = encode (.frameData h a c p k) ∧
      ((Instr.frameData h a c p k).WellFormed = true → t = { s with
        buf := t.buf, rxq := rest, idx := p.length + 6, dstate := .frameReady, out := s.out ++ [.outcome 1] }) ∧
      ((Instr.frameData h a c p k).WellFormed = false → t = { s with
        buf := t.buf, rxq := rest, idx := p.length + 6, dstate := .chkFailed, out := s.out ++ [.outcome 3] })

/-- With the bus and the host silent (log 7) and no operation presented alone (log 9), a frame whose declared size
exceeds MAX_FRAME costs exactly MAX_FRAME + 1 bytes and ends Invalid (R64, R73; late detection and the dropped byte are
the spec's decision D7). -/
def Obligations.OversizeIsSwallowed : Prop :=
  ∀ (s : State) (h a c n : Byte) (more rest : List Byte), s.params.Legal → s.probe = none → s.agenda = [] →
    s.stopped = false → s.dstate = .waitStart → s.buf.wf → s.params.maxFrame < zext n + 6 →
    more.length + 4 = s.params.maxFrame → s.rxq = 0x5C :: h :: a :: c :: n :: more ++ rest →
    ∃ t, run (s.params.maxFrame + 1) s = .next t ∧ t = { s with
      buf := t.buf, rxq := rest, idx := s.params.maxFrame, dstate := .invalid, out := s.out ++ [.outcome 2] }

/-- With the bus and the host silent (log 7) and no operation presented alone (log 9), a token frame is answered, in
the steps that receive and dispatch it, with the oldest datagram of its queue, byte for byte, in one bracket, and with
nothing else (R112, R113, R127; spec/95 S3, S6). -/
def Obligations.TokenRelaysQueuedDatagram : Prop :=
  ∀ (s : State) (kind : TokenKind) (h k : Byte) (d : Datagram) (q : List Datagram) (rest : List Byte),
    s.params.Legal → s.probe = none → s.agenda = [] → s.stopped = false → s.dstate = .waitStart → s.de = false →
    s.buf.wf → (Instr.tokMatch h s.cfg.ownAddress kind k).WellFormed = true →
    s.rxq = encode (.tokMatch h s.cfg.ownAddress kind k) ++ rest → s.queue kind = d :: q → d ≠ [] →
    ∃ t, run 7 s = .next t ∧ t.dstate = .waitStart ∧ t.idx = 0 ∧ t.de = false ∧ t.rxq = rest ∧ t.queue kind = q ∧
      (∀ k', k' ≠ kind → t.queue k' = s.queue k') ∧ t.fout = s.fout ∧
      t.out = s.out ++ (.outcome 1 :: .token kind :: .claim kind d :: bracket s.params.tSettle d)

/-- No step depends on a byte of BUF that is not of the frame in progress: two states that differ only there go on
to states that differ only there (R10, R84, inferred there; a step that runs an operation presented alone is left
out, log 9). -/
def Obligations.StaleBytesNeverMatter : Prop :=
  ∀ (s t s' : State), s.probe = none → s.buf.wf → t.buf.wf → s.FrameInv → SameFrame s t → step s = .next s' →
    ∃ t', step t = .next t' ∧ SameFrame s' t'

/-- A value of MAX_FRAME above 261 behaves as 261, and so does any other such value (R5, the spec's decision D5). -/
def Obligations.LargeMaxFrameIsIrrelevant : Prop :=
  ∀ (s t : State) (m : Nat), s.probe = none → s.FrameInv → 261 ≤ s.params.maxFrame → 261 ≤ m → step s = .next t →
    step (s.withMaxFrame m) = .next (t.withMaxFrame m)

/-- The block never stops by itself: where the invariants hold its turn answers a next state, and from a terminal
state that state waits for a start byte with no byte taken (R78, R130, R139, R160; that a turn with nothing to do is
a step that answers a next state is the model's, log 8, and the block's turn its move of the agenda, log 7). -/
def Obligations.BlockNeverStopsItself : Prop :=
  ∀ (s u : State), s.FrameInv → BlockMoves s u →
    ∃ t, step s = .next t ∧
      (s.stopped = false → ¬s.Receives → t.dstate = .waitStart ∧ t.idx = 0 ∧ t.rxq = s.rxq ∧ t.buf = s.buf)
end

