-- ==== Sys2Proof/Laws/Memory.lean ====
section
/-! SUPPORT. BUF: a read after a write, the canonical form, slices. -/

namespace Sys2Proof.Machine

@[simp] theorem Mem.read_nil (i : Nat) : Mem.read [] i = 0#8 := rfl

theorem Mem.read_cons (a : Nat) (v : Byte) (m : Mem) (i : Nat) :
    Mem.read ((a, v) :: m) i = if i = a then v else Mem.read m i := rfl

theorem Mem.wf_nil : Mem.wf [] := ⟨List.Pairwise.nil, (fun _ h => nomatch h)⟩

theorem Mem.wf_cons {a : Nat} {v : Byte} {m : Mem} :
    Mem.wf ((a, v) :: m) ↔ (∀ c ∈ m, a < c.1) ∧ v ≠ 0#8 ∧ Mem.wf m := by
  simp only [Mem.wf, List.pairwise_cons, List.mem_cons, forall_eq_or_imp]
  tauto

/-- Nothing is listed at an index below every listed one. -/
theorem Mem.read_eq_zero_of_lt {m : Mem} {i : Nat} (h : ∀ c ∈ m, i < c.1) : Mem.read m i = 0#8 := by
  induction m with
  | nil => rfl
  | cons c m ih =>
    obtain ⟨a, v⟩ := c
    have ha : i < a := h (a, v) (by simp)
    rw [Mem.read_cons, if_neg (by omega)]
    exact ih fun c hc => h c (by simp [hc])

/-- What a write changes: the byte at its index, nothing else. -/
theorem Mem.read_write {m : Mem} (h : m.wf) (i : Nat) (v : Byte) (j : Nat) :
    (m.write i v).read j = if j = i then v else m.read j := by
  induction m with
  | nil => by_cases hv : v = 0#8 <;> simp [Mem.write, Mem.read, hv]
  | cons c m ih =>
    obtain ⟨a, w⟩ := c
    obtain ⟨hlt, hw, hm⟩ := Mem.wf_cons.1 h
    simp only [Mem.write]
    split
    · next hia =>
      by_cases hv : v = 0#8
      · by_cases hj : j = i
        · subst hj
          have : Mem.read m j = 0#8 := Mem.read_eq_zero_of_lt fun c hc => by have := hlt c hc; omega
          simp [Mem.read_cons, hv, this, Nat.ne_of_lt hia]
        · simp [Mem.read_cons, hv, hj]
      · simp [Mem.read_cons, hv]
    · split
      · next hia =>
        subst hia
        by_cases hv : v = 0#8
        · by_cases hj : j = i
          · subst hj; simp [hv, Mem.read_eq_zero_of_lt hlt]
          · simp [Mem.read_cons, hv, hj]
        · rw [if_neg hv, Mem.read_cons, Mem.read_cons]; split <;> rfl
      · next h1 h2 =>
        rw [Mem.read_cons, Mem.read_cons, ih hm]
        by_cases hj : j = a
        · subst hj; simp [Ne.symm h2]
        · simp [hj]

theorem Mem.read_write_same {m : Mem} (h : m.wf) (i : Nat) (v : Byte) : (m.write i v).read i = v := by
  simp [Mem.read_write h]

theorem Mem.read_write_ne {m : Mem} (h : m.wf) {i j : Nat} (hij : j ≠ i) (v : Byte) :
    (m.write i v).read j = m.read j := by simp [Mem.read_write h, hij]

/-- A write lists no index but the old ones and its own. -/
theorem Mem.mem_write {m : Mem} {i : Nat} {v : Byte} {c : Host.Cell} (h : c ∈ m.write i v) :
    c ∈ m ∨ (c = (i, v) ∧ v ≠ 0#8) := by
  induction m with
  | nil => by_cases hv : v = 0#8 <;> simp_all [Mem.write]
  | cons d m ih =>
    obtain ⟨a, w⟩ := d
    simp only [Mem.write] at h
    repeat' split at h
    all_goals simp only [List.mem_cons] at h ⊢
    all_goals tauto

/-- A write keeps the canonical form. -/
theorem Mem.wf_write {m : Mem} (h : m.wf) (i : Nat) (v : Byte) : (m.write i v).wf := by
  induction m with
  | nil =>
    simp only [Mem.write]
    split
    · exact h
    · next hv => exact Mem.wf_cons.2 ⟨(fun _ hc => nomatch hc), hv, h⟩
  | cons c m ih =>
    obtain ⟨a, w⟩ := c
    obtain ⟨hlt, hw, hm⟩ := Mem.wf_cons.1 h
    simp only [Mem.write]
    split
    · next hia =>
      split
      · exact h
      · next hv =>
        refine Mem.wf_cons.2 ⟨fun c hc => ?_, hv, h⟩
        rcases List.mem_cons.1 hc with rfl | hc
        · exact hia
        · have := hlt c hc; omega
    · split
      · next hia =>
        subst hia
        split
        · exact hm
        · next hv => exact Mem.wf_cons.2 ⟨hlt, hv, hm⟩
      · refine Mem.wf_cons.2 ⟨fun c hc => ?_, hw, ih hm⟩
        rcases Mem.mem_write hc with hc | ⟨rfl, _⟩
        · exact hlt c hc
        · show a < i; omega

theorem Mem.wf_load {m : Mem} (h : m.wf) (a : Nat) (bs : List Byte) : (m.load a bs).wf := by
  induction bs generalizing m a with
  | nil => exact h
  | cons b bs ih => exact ih (Mem.wf_write h a b) (a + 1)

@[simp] theorem Mem.slice_length (m : Mem) (a n : Nat) : (m.slice a n).length = n := by
  induction n generalizing a with
  | zero => rfl
  | succ n ih => simp [Mem.slice, ih]

/-- A slice depends on its own bytes alone. -/
theorem Mem.slice_congr {m m' : Mem} {a n : Nat} (h : ∀ i, a ≤ i → i < a + n → m'.read i = m.read i) :
    m'.slice a n = m.slice a n := by
  induction n generalizing a with
  | zero => rfl
  | succ n ih =>
    simp only [Mem.slice]
    rw [h a (Nat.le_refl a) (by omega), ih fun i h1 h2 => h i (by omega) (by omega)]

theorem Mem.slice_succ (m : Mem) (a n : Nat) : m.slice a (n + 1) = m.slice a n ++ [m.read (a + n)] := by
  induction n generalizing a with
  | zero => rfl
  | succ n ih =>
    rw [Mem.slice, ih (a + 1), Mem.slice, List.cons_append, Nat.add_right_comm a 1 n, Nat.add_assoc a n 1]

end Sys2Proof.Machine
end

