-- ==== Sys2Proof/Laws/State.lean ====
section
/-! SUPPORT. One lemma per field per update of State, so that no proof unfolds a record update. -/

namespace Sys2Proof.Machine

@[simp] theorem State.emit_buf (s : State) (e : Event) : (s.emit e).buf = s.buf := rfl
@[simp] theorem State.emit_dstate (s : State) (e : Event) : (s.emit e).dstate = s.dstate := rfl
@[simp] theorem State.emit_idx (s : State) (e : Event) : (s.emit e).idx = s.idx := rfl
@[simp] theorem State.emit_cfg (s : State) (e : Event) : (s.emit e).cfg = s.cfg := rfl
@[simp] theorem State.emit_de (s : State) (e : Event) : (s.emit e).de = s.de := rfl
@[simp] theorem State.emit_stopped (s : State) (e : Event) : (s.emit e).stopped = s.stopped := rfl
@[simp] theorem State.emit_out (s : State) (e : Event) : (s.emit e).out = s.out ++ [e] := rfl
@[simp] theorem State.emit_rxq (s : State) (e : Event) : (s.emit e).rxq = s.rxq := rfl
@[simp] theorem State.emit_txs (s : State) (e : Event) : (s.emit e).txs = s.txs := rfl
@[simp] theorem State.emit_rdq (s : State) (e : Event) : (s.emit e).rdq = s.rdq := rfl
@[simp] theorem State.emit_wrq (s : State) (e : Event) : (s.emit e).wrq = s.wrq := rfl
@[simp] theorem State.emit_fout (s : State) (e : Event) : (s.emit e).fout = s.fout := rfl
@[simp] theorem State.emit_params (s : State) (e : Event) : (s.emit e).params = s.params := rfl
@[simp] theorem State.emit_agenda (s : State) (e : Event) : (s.emit e).agenda = s.agenda := rfl
@[simp] theorem State.emit_probe (s : State) (e : Event) : (s.emit e).probe = s.probe := rfl
@[simp] theorem State.emit_answer (s : State) (e : Event) : (s.emit e).answer = s.answer := rfl

@[simp] theorem State.append_buf (s : State) (b : Byte) : (s.append b).buf = s.buf.write s.idx b := rfl
@[simp] theorem State.append_dstate (s : State) (b : Byte) : (s.append b).dstate = s.dstate := rfl
@[simp] theorem State.append_idx (s : State) (b : Byte) : (s.append b).idx = s.idx + 1 := rfl
@[simp] theorem State.append_cfg (s : State) (b : Byte) : (s.append b).cfg = s.cfg := rfl
@[simp] theorem State.append_de (s : State) (b : Byte) : (s.append b).de = s.de := rfl
@[simp] theorem State.append_stopped (s : State) (b : Byte) : (s.append b).stopped = s.stopped := rfl
@[simp] theorem State.append_out (s : State) (b : Byte) : (s.append b).out = s.out := rfl
@[simp] theorem State.append_rxq (s : State) (b : Byte) : (s.append b).rxq = s.rxq := rfl
@[simp] theorem State.append_txs (s : State) (b : Byte) : (s.append b).txs = s.txs := rfl
@[simp] theorem State.append_rdq (s : State) (b : Byte) : (s.append b).rdq = s.rdq := rfl
@[simp] theorem State.append_wrq (s : State) (b : Byte) : (s.append b).wrq = s.wrq := rfl
@[simp] theorem State.append_fout (s : State) (b : Byte) : (s.append b).fout = s.fout := rfl
@[simp] theorem State.append_params (s : State) (b : Byte) : (s.append b).params = s.params := rfl
@[simp] theorem State.append_agenda (s : State) (b : Byte) : (s.append b).agenda = s.agenda := rfl
@[simp] theorem State.append_probe (s : State) (b : Byte) : (s.append b).probe = s.probe := rfl
@[simp] theorem State.append_answer (s : State) (b : Byte) : (s.append b).answer = s.answer := rfl

@[simp] theorem State.setDirection_buf (s : State) (t : Bool) : (s.setDirection t).buf = s.buf := rfl
@[simp] theorem State.setDirection_dstate (s : State) (t : Bool) : (s.setDirection t).dstate = s.dstate := rfl
@[simp] theorem State.setDirection_idx (s : State) (t : Bool) : (s.setDirection t).idx = s.idx := rfl
@[simp] theorem State.setDirection_cfg (s : State) (t : Bool) : (s.setDirection t).cfg = s.cfg := rfl
@[simp] theorem State.setDirection_de (s : State) (t : Bool) : (s.setDirection t).de = t := rfl
@[simp] theorem State.setDirection_stopped (s : State) (t : Bool) : (s.setDirection t).stopped = s.stopped := rfl
@[simp] theorem State.setDirection_out (s : State) (t : Bool) : (s.setDirection t).out = s.out ++ [.dir t] := rfl
@[simp] theorem State.setDirection_rxq (s : State) (t : Bool) : (s.setDirection t).rxq = s.rxq := rfl
@[simp] theorem State.setDirection_txs (s : State) (t : Bool) : (s.setDirection t).txs = s.txs := rfl
@[simp] theorem State.setDirection_rdq (s : State) (t : Bool) : (s.setDirection t).rdq = s.rdq := rfl
@[simp] theorem State.setDirection_wrq (s : State) (t : Bool) : (s.setDirection t).wrq = s.wrq := rfl
@[simp] theorem State.setDirection_fout (s : State) (t : Bool) : (s.setDirection t).fout = s.fout := rfl
@[simp] theorem State.setDirection_params (s : State) (t : Bool) : (s.setDirection t).params = s.params := rfl
@[simp] theorem State.setDirection_agenda (s : State) (t : Bool) : (s.setDirection t).agenda = s.agenda := rfl
@[simp] theorem State.setDirection_probe (s : State) (t : Bool) : (s.setDirection t).probe = s.probe := rfl
@[simp] theorem State.setDirection_answer (s : State) (t : Bool) : (s.setDirection t).answer = s.answer := rfl

@[simp] theorem State.settle_buf (s : State) : (s.settle).buf = s.buf := rfl
@[simp] theorem State.settle_dstate (s : State) : (s.settle).dstate = s.dstate := rfl
@[simp] theorem State.settle_idx (s : State) : (s.settle).idx = s.idx := rfl
@[simp] theorem State.settle_cfg (s : State) : (s.settle).cfg = s.cfg := rfl
@[simp] theorem State.settle_de (s : State) : (s.settle).de = s.de := rfl
@[simp] theorem State.settle_stopped (s : State) : (s.settle).stopped = s.stopped := rfl
@[simp] theorem State.settle_out (s : State) : (s.settle).out = s.out ++ [.wait s.params.tSettle] := rfl
@[simp] theorem State.settle_rxq (s : State) : (s.settle).rxq = s.rxq := rfl
@[simp] theorem State.settle_txs (s : State) : (s.settle).txs = s.txs := rfl
@[simp] theorem State.settle_rdq (s : State) : (s.settle).rdq = s.rdq := rfl
@[simp] theorem State.settle_wrq (s : State) : (s.settle).wrq = s.wrq := rfl
@[simp] theorem State.settle_fout (s : State) : (s.settle).fout = s.fout := rfl
@[simp] theorem State.settle_params (s : State) : (s.settle).params = s.params := rfl
@[simp] theorem State.settle_agenda (s : State) : (s.settle).agenda = s.agenda := rfl
@[simp] theorem State.settle_probe (s : State) : (s.settle).probe = s.probe := rfl
@[simp] theorem State.settle_answer (s : State) : (s.settle).answer = s.answer := rfl

@[simp] theorem State.transmit_buf (s : State) (d : Datagram) : (s.transmit d).buf = s.buf := rfl
@[simp] theorem State.transmit_dstate (s : State) (d : Datagram) : (s.transmit d).dstate = s.dstate := rfl
@[simp] theorem State.transmit_idx (s : State) (d : Datagram) : (s.transmit d).idx = s.idx := rfl
@[simp] theorem State.transmit_cfg (s : State) (d : Datagram) : (s.transmit d).cfg = s.cfg := rfl
@[simp] theorem State.transmit_de (s : State) (d : Datagram) : (s.transmit d).de = s.de := rfl
@[simp] theorem State.transmit_stopped (s : State) (d : Datagram) : (s.transmit d).stopped = s.stopped := rfl
@[simp] theorem State.transmit_out (s : State) (d : Datagram) : (s.transmit d).out = s.out ++ [.tx d] := rfl
@[simp] theorem State.transmit_rxq (s : State) (d : Datagram) : (s.transmit d).rxq = s.rxq := rfl
@[simp] theorem State.transmit_txs (s : State) (d : Datagram) : (s.transmit d).txs = s.txs ++ d := rfl
@[simp] theorem State.transmit_rdq (s : State) (d : Datagram) : (s.transmit d).rdq = s.rdq := rfl
@[simp] theorem State.transmit_wrq (s : State) (d : Datagram) : (s.transmit d).wrq = s.wrq := rfl
@[simp] theorem State.transmit_fout (s : State) (d : Datagram) : (s.transmit d).fout = s.fout := rfl
@[simp] theorem State.transmit_params (s : State) (d : Datagram) : (s.transmit d).params = s.params := rfl
@[simp] theorem State.transmit_agenda (s : State) (d : Datagram) : (s.transmit d).agenda = s.agenda := rfl
@[simp] theorem State.transmit_probe (s : State) (d : Datagram) : (s.transmit d).probe = s.probe := rfl
@[simp] theorem State.transmit_answer (s : State) (d : Datagram) : (s.transmit d).answer = s.answer := rfl

@[simp] theorem State.flushTx_buf (s : State) : (s.flushTx).buf = s.buf := rfl
@[simp] theorem State.flushTx_dstate (s : State) : (s.flushTx).dstate = s.dstate := rfl
@[simp] theorem State.flushTx_idx (s : State) : (s.flushTx).idx = s.idx := rfl
@[simp] theorem State.flushTx_cfg (s : State) : (s.flushTx).cfg = s.cfg := rfl
@[simp] theorem State.flushTx_de (s : State) : (s.flushTx).de = s.de := rfl
@[simp] theorem State.flushTx_stopped (s : State) : (s.flushTx).stopped = s.stopped := rfl
@[simp] theorem State.flushTx_out (s : State) : (s.flushTx).out = s.out ++ [.flush] := rfl
@[simp] theorem State.flushTx_rxq (s : State) : (s.flushTx).rxq = s.rxq := rfl
@[simp] theorem State.flushTx_txs (s : State) : (s.flushTx).txs = [] := rfl
@[simp] theorem State.flushTx_rdq (s : State) : (s.flushTx).rdq = s.rdq := rfl
@[simp] theorem State.flushTx_wrq (s : State) : (s.flushTx).wrq = s.wrq := rfl
@[simp] theorem State.flushTx_fout (s : State) : (s.flushTx).fout = s.fout := rfl
@[simp] theorem State.flushTx_params (s : State) : (s.flushTx).params = s.params := rfl
@[simp] theorem State.flushTx_agenda (s : State) : (s.flushTx).agenda = s.agenda := rfl
@[simp] theorem State.flushTx_probe (s : State) : (s.flushTx).probe = s.probe := rfl
@[simp] theorem State.flushTx_answer (s : State) : (s.flushTx).answer = s.answer := rfl

@[simp] theorem State.handOn_buf (s : State) (d : Datagram) (fwd : Bool) : (s.handOn d fwd).buf = s.buf := rfl
@[simp] theorem State.handOn_dstate (s : State) (d : Datagram) (fwd : Bool) : (s.handOn d fwd).dstate = s.dstate := rfl
@[simp] theorem State.handOn_idx (s : State) (d : Datagram) (fwd : Bool) : (s.handOn d fwd).idx = s.idx := rfl
@[simp] theorem State.handOn_cfg (s : State) (d : Datagram) (fwd : Bool) : (s.handOn d fwd).cfg = s.cfg := rfl
@[simp] theorem State.handOn_de (s : State) (d : Datagram) (fwd : Bool) : (s.handOn d fwd).de = s.de := rfl
@[simp] theorem State.handOn_stopped (s : State) (d : Datagram) (fwd : Bool) : (s.handOn d fwd).stopped = s.stopped := rfl
@[simp] theorem State.handOn_out (s : State) (d : Datagram) (fwd : Bool) : (s.handOn d fwd).out = s.out ++ [.frameOut d fwd] := rfl
@[simp] theorem State.handOn_rxq (s : State) (d : Datagram) (fwd : Bool) : (s.handOn d fwd).rxq = s.rxq := rfl
@[simp] theorem State.handOn_txs (s : State) (d : Datagram) (fwd : Bool) : (s.handOn d fwd).txs = s.txs := rfl
@[simp] theorem State.handOn_rdq (s : State) (d : Datagram) (fwd : Bool) : (s.handOn d fwd).rdq = s.rdq := rfl
@[simp] theorem State.handOn_wrq (s : State) (d : Datagram) (fwd : Bool) : (s.handOn d fwd).wrq = s.wrq := rfl
@[simp] theorem State.handOn_fout (s : State) (d : Datagram) (fwd : Bool) : (s.handOn d fwd).fout = s.fout ++ [⟨d, fwd⟩] := rfl
@[simp] theorem State.handOn_params (s : State) (d : Datagram) (fwd : Bool) : (s.handOn d fwd).params = s.params := rfl
@[simp] theorem State.handOn_agenda (s : State) (d : Datagram) (fwd : Bool) : (s.handOn d fwd).agenda = s.agenda := rfl
@[simp] theorem State.handOn_probe (s : State) (d : Datagram) (fwd : Bool) : (s.handOn d fwd).probe = s.probe := rfl
@[simp] theorem State.handOn_answer (s : State) (d : Datagram) (fwd : Bool) : (s.handOn d fwd).answer = s.answer := rfl

@[simp] theorem State.enter_buf (s : State) (d : DecoderState) : (s.enter d).buf = s.buf := rfl
@[simp] theorem State.enter_dstate (s : State) (d : DecoderState) : (s.enter d).dstate = d := rfl
@[simp] theorem State.enter_idx (s : State) (d : DecoderState) : (s.enter d).idx = s.idx := rfl
@[simp] theorem State.enter_cfg (s : State) (d : DecoderState) : (s.enter d).cfg = s.cfg := rfl
@[simp] theorem State.enter_de (s : State) (d : DecoderState) : (s.enter d).de = s.de := rfl
@[simp] theorem State.enter_stopped (s : State) (d : DecoderState) : (s.enter d).stopped = s.stopped := rfl
@[simp] theorem State.enter_out (s : State) (d : DecoderState) : (s.enter d).out = s.out ++ [.outcome d.outcomeCode] := rfl
@[simp] theorem State.enter_rxq (s : State) (d : DecoderState) : (s.enter d).rxq = s.rxq := rfl
@[simp] theorem State.enter_txs (s : State) (d : DecoderState) : (s.enter d).txs = s.txs := rfl
@[simp] theorem State.enter_rdq (s : State) (d : DecoderState) : (s.enter d).rdq = s.rdq := rfl
@[simp] theorem State.enter_wrq (s : State) (d : DecoderState) : (s.enter d).wrq = s.wrq := rfl
@[simp] theorem State.enter_fout (s : State) (d : DecoderState) : (s.enter d).fout = s.fout := rfl
@[simp] theorem State.enter_params (s : State) (d : DecoderState) : (s.enter d).params = s.params := rfl
@[simp] theorem State.enter_agenda (s : State) (d : DecoderState) : (s.enter d).agenda = s.agenda := rfl
@[simp] theorem State.enter_probe (s : State) (d : DecoderState) : (s.enter d).probe = s.probe := rfl
@[simp] theorem State.enter_answer (s : State) (d : DecoderState) : (s.enter d).answer = s.answer := rfl

@[simp] theorem State.resume_buf (s : State) : (s.resume).buf = s.buf := rfl
@[simp] theorem State.resume_dstate (s : State) : (s.resume).dstate = .waitStart := rfl
@[simp] theorem State.resume_idx (s : State) : (s.resume).idx = 0 := rfl
@[simp] theorem State.resume_cfg (s : State) : (s.resume).cfg = s.cfg := rfl
@[simp] theorem State.resume_de (s : State) : (s.resume).de = s.de := rfl
@[simp] theorem State.resume_stopped (s : State) : (s.resume).stopped = s.stopped := rfl
@[simp] theorem State.resume_out (s : State) : (s.resume).out = s.out := rfl
@[simp] theorem State.resume_rxq (s : State) : (s.resume).rxq = s.rxq := rfl
@[simp] theorem State.resume_txs (s : State) : (s.resume).txs = s.txs := rfl
@[simp] theorem State.resume_rdq (s : State) : (s.resume).rdq = s.rdq := rfl
@[simp] theorem State.resume_wrq (s : State) : (s.resume).wrq = s.wrq := rfl
@[simp] theorem State.resume_fout (s : State) : (s.resume).fout = s.fout := rfl
@[simp] theorem State.resume_params (s : State) : (s.resume).params = s.params := rfl
@[simp] theorem State.resume_agenda (s : State) : (s.resume).agenda = s.agenda := rfl
@[simp] theorem State.resume_probe (s : State) : (s.resume).probe = s.probe := rfl
@[simp] theorem State.resume_answer (s : State) : (s.resume).answer = s.answer := rfl

@[simp] theorem State.answering_buf (s : State) (a : Answer) : (s.answering a).buf = s.buf := rfl
@[simp] theorem State.answering_dstate (s : State) (a : Answer) : (s.answering a).dstate = s.dstate := rfl
@[simp] theorem State.answering_idx (s : State) (a : Answer) : (s.answering a).idx = s.idx := rfl
@[simp] theorem State.answering_cfg (s : State) (a : Answer) : (s.answering a).cfg = s.cfg := rfl
@[simp] theorem State.answering_de (s : State) (a : Answer) : (s.answering a).de = s.de := rfl
@[simp] theorem State.answering_stopped (s : State) (a : Answer) : (s.answering a).stopped = s.stopped := rfl
@[simp] theorem State.answering_out (s : State) (a : Answer) : (s.answering a).out = s.out := rfl
@[simp] theorem State.answering_rxq (s : State) (a : Answer) : (s.answering a).rxq = s.rxq := rfl
@[simp] theorem State.answering_txs (s : State) (a : Answer) : (s.answering a).txs = s.txs := rfl
@[simp] theorem State.answering_rdq (s : State) (a : Answer) : (s.answering a).rdq = s.rdq := rfl
@[simp] theorem State.answering_wrq (s : State) (a : Answer) : (s.answering a).wrq = s.wrq := rfl
@[simp] theorem State.answering_fout (s : State) (a : Answer) : (s.answering a).fout = s.fout := rfl
@[simp] theorem State.answering_params (s : State) (a : Answer) : (s.answering a).params = s.params := rfl
@[simp] theorem State.answering_agenda (s : State) (a : Answer) : (s.answering a).agenda = s.agenda := rfl
@[simp] theorem State.answering_probe (s : State) (a : Answer) : (s.answering a).probe = s.probe := rfl
@[simp] theorem State.answering_answer (s : State) (a : Answer) : (s.answering a).answer = some a := rfl

@[simp] theorem State.sent_buf (s : State) (d : Datagram) : (s.sent d).buf = s.buf := rfl
@[simp] theorem State.sent_dstate (s : State) (d : Datagram) : (s.sent d).dstate = s.dstate := rfl
@[simp] theorem State.sent_idx (s : State) (d : Datagram) : (s.sent d).idx = s.idx := rfl
@[simp] theorem State.sent_cfg (s : State) (d : Datagram) : (s.sent d).cfg = s.cfg := rfl
@[simp] theorem State.sent_de (s : State) (d : Datagram) : (s.sent d).de = false := rfl
@[simp] theorem State.sent_stopped (s : State) (d : Datagram) : (s.sent d).stopped = s.stopped := rfl
@[simp] theorem State.sent_out (s : State) (d : Datagram) : (s.sent d).out =
    s.out ++ [.dir true, .wait s.params.tSettle, .tx d, .flush, .wait s.params.tSettle, .dir false] := by
  simp [State.sent]
@[simp] theorem State.sent_rxq (s : State) (d : Datagram) : (s.sent d).rxq = s.rxq := rfl
@[simp] theorem State.sent_txs (s : State) (d : Datagram) : (s.sent d).txs = [] := rfl
@[simp] theorem State.sent_rdq (s : State) (d : Datagram) : (s.sent d).rdq = s.rdq := rfl
@[simp] theorem State.sent_wrq (s : State) (d : Datagram) : (s.sent d).wrq = s.wrq := rfl
@[simp] theorem State.sent_fout (s : State) (d : Datagram) : (s.sent d).fout = s.fout := rfl
@[simp] theorem State.sent_params (s : State) (d : Datagram) : (s.sent d).params = s.params := rfl
@[simp] theorem State.sent_agenda (s : State) (d : Datagram) : (s.sent d).agenda = s.agenda := rfl
@[simp] theorem State.sent_probe (s : State) (d : Datagram) : (s.sent d).probe = s.probe := rfl
@[simp] theorem State.sent_answer (s : State) (d : Datagram) : (s.sent d).answer = s.answer := rfl

@[simp] theorem State.setQueue_buf (s : State) (k : TokenKind) (q : List Datagram) :
    (s.setQueue k q).buf = s.buf := by cases k <;> rfl
@[simp] theorem State.setQueue_dstate (s : State) (k : TokenKind) (q : List Datagram) :
    (s.setQueue k q).dstate = s.dstate := by cases k <;> rfl
@[simp] theorem State.setQueue_idx (s : State) (k : TokenKind) (q : List Datagram) :
    (s.setQueue k q).idx = s.idx := by cases k <;> rfl
@[simp] theorem State.setQueue_cfg (s : State) (k : TokenKind) (q : List Datagram) :
    (s.setQueue k q).cfg = s.cfg := by cases k <;> rfl
@[simp] theorem State.setQueue_de (s : State) (k : TokenKind) (q : List Datagram) :
    (s.setQueue k q).de = s.de := by cases k <;> rfl
@[simp] theorem State.setQueue_stopped (s : State) (k : TokenKind) (q : List Datagram) :
    (s.setQueue k q).stopped = s.stopped := by cases k <;> rfl
@[simp] theorem State.setQueue_out (s : State) (k : TokenKind) (q : List Datagram) :
    (s.setQueue k q).out = s.out := by cases k <;> rfl
@[simp] theorem State.setQueue_rxq (s : State) (k : TokenKind) (q : List Datagram) :
    (s.setQueue k q).rxq = s.rxq := by cases k <;> rfl
@[simp] theorem State.setQueue_txs (s : State) (k : TokenKind) (q : List Datagram) :
    (s.setQueue k q).txs = s.txs := by cases k <;> rfl
@[simp] theorem State.setQueue_fout (s : State) (k : TokenKind) (q : List Datagram) :
    (s.setQueue k q).fout = s.fout := by cases k <;> rfl
@[simp] theorem State.setQueue_params (s : State) (k : TokenKind) (q : List Datagram) :
    (s.setQueue k q).params = s.params := by cases k <;> rfl
@[simp] theorem State.setQueue_agenda (s : State) (k : TokenKind) (q : List Datagram) :
    (s.setQueue k q).agenda = s.agenda := by cases k <;> rfl
@[simp] theorem State.setQueue_probe (s : State) (k : TokenKind) (q : List Datagram) :
    (s.setQueue k q).probe = s.probe := by cases k <;> rfl
@[simp] theorem State.setQueue_answer (s : State) (k : TokenKind) (q : List Datagram) :
    (s.setQueue k q).answer = s.answer := by cases k <;> rfl
@[simp] theorem State.setQueue_read_rdq (s : State) (q : List Datagram) : (s.setQueue .read q).rdq = q := rfl
@[simp] theorem State.setQueue_read_wrq (s : State) (q : List Datagram) : (s.setQueue .read q).wrq = s.wrq := rfl
@[simp] theorem State.setQueue_write_rdq (s : State) (q : List Datagram) : (s.setQueue .write q).rdq = s.rdq := rfl
@[simp] theorem State.setQueue_write_wrq (s : State) (q : List Datagram) : (s.setQueue .write q).wrq = q := rfl
@[simp] theorem State.queue_setQueue (s : State) (k : TokenKind) (q : List Datagram) : (s.setQueue k q).queue k = q := by
  cases k <;> rfl

@[simp] theorem State.claimed_buf (s : State) (k : TokenKind) (d : Datagram) (q : List Datagram) :
    (s.claimed k d q).buf = s.buf := by cases k <;> rfl
@[simp] theorem State.claimed_dstate (s : State) (k : TokenKind) (d : Datagram) (q : List Datagram) :
    (s.claimed k d q).dstate = s.dstate := by cases k <;> rfl
@[simp] theorem State.claimed_idx (s : State) (k : TokenKind) (d : Datagram) (q : List Datagram) :
    (s.claimed k d q).idx = s.idx := by cases k <;> rfl
@[simp] theorem State.claimed_cfg (s : State) (k : TokenKind) (d : Datagram) (q : List Datagram) :
    (s.claimed k d q).cfg = s.cfg := by cases k <;> rfl
@[simp] theorem State.claimed_de (s : State) (k : TokenKind) (d : Datagram) (q : List Datagram) :
    (s.claimed k d q).de = s.de := by cases k <;> rfl
@[simp] theorem State.claimed_stopped (s : State) (k : TokenKind) (d : Datagram) (q : List Datagram) :
    (s.claimed k d q).stopped = s.stopped := by cases k <;> rfl
@[simp] theorem State.claimed_out (s : State) (k : TokenKind) (d : Datagram) (q : List Datagram) :
    (s.claimed k d q).out = s.out ++ [.claim k d] := by cases k <;> rfl
@[simp] theorem State.claimed_rxq (s : State) (k : TokenKind) (d : Datagram) (q : List Datagram) :
    (s.claimed k d q).rxq = s.rxq := by cases k <;> rfl
@[simp] theorem State.claimed_txs (s : State) (k : TokenKind) (d : Datagram) (q : List Datagram) :
    (s.claimed k d q).txs = s.txs := by cases k <;> rfl
@[simp] theorem State.claimed_fout (s : State) (k : TokenKind) (d : Datagram) (q : List Datagram) :
    (s.claimed k d q).fout = s.fout := by cases k <;> rfl
@[simp] theorem State.claimed_params (s : State) (k : TokenKind) (d : Datagram) (q : List Datagram) :
    (s.claimed k d q).params = s.params := by cases k <;> rfl
@[simp] theorem State.claimed_agenda (s : State) (k : TokenKind) (d : Datagram) (q : List Datagram) :
    (s.claimed k d q).agenda = s.agenda := by cases k <;> rfl
@[simp] theorem State.claimed_probe (s : State) (k : TokenKind) (d : Datagram) (q : List Datagram) :
    (s.claimed k d q).probe = s.probe := by cases k <;> rfl
@[simp] theorem State.claimed_answer (s : State) (k : TokenKind) (d : Datagram) (q : List Datagram) :
    (s.claimed k d q).answer = s.answer := by cases k <;> rfl
@[simp] theorem State.queue_claimed (s : State) (k : TokenKind) (d : Datagram) (q : List Datagram) :
    (s.claimed k d q).queue k = q := by cases k <;> rfl
@[simp] theorem State.claimed_read_wrq (s : State) (d : Datagram) (q : List Datagram) :
    (s.claimed .read d q).wrq = s.wrq := rfl
@[simp] theorem State.claimed_write_rdq (s : State) (d : Datagram) (q : List Datagram) :
    (s.claimed .write d q).rdq = s.rdq := rfl
@[simp] theorem State.claimed_read_rdq (s : State) (d : Datagram) (q : List Datagram) :
    (s.claimed .read d q).rdq = q := rfl
@[simp] theorem State.claimed_write_wrq (s : State) (d : Datagram) (q : List Datagram) :
    (s.claimed .write d q).wrq = q := rfl

/-! The queues by kind. -/

@[simp] theorem State.queue_emit (s : State) (e : Event) (k : TokenKind) : (s.emit e).queue k = s.queue k := by
  cases k <;> rfl
@[simp] theorem State.queue_append (s : State) (b : Byte) (k : TokenKind) : (s.append b).queue k = s.queue k := by
  cases k <;> rfl
@[simp] theorem State.queue_setDirection (s : State) (t : Bool) (k : TokenKind) : (s.setDirection t).queue k = s.queue k := by
  cases k <;> rfl
@[simp] theorem State.queue_settle (s : State) (k : TokenKind) : (s.settle).queue k = s.queue k := by
  cases k <;> rfl
@[simp] theorem State.queue_transmit (s : State) (d : Datagram) (k : TokenKind) : (s.transmit d).queue k = s.queue k := by
  cases k <;> rfl
@[simp] theorem State.queue_flushTx (s : State) (k : TokenKind) : (s.flushTx).queue k = s.queue k := by
  cases k <;> rfl
@[simp] theorem State.queue_sent (s : State) (d : Datagram) (k : TokenKind) : (s.sent d).queue k = s.queue k := by
  cases k <;> rfl
@[simp] theorem State.queue_handOn (s : State) (d : Datagram) (fwd : Bool) (k : TokenKind) : (s.handOn d fwd).queue k = s.queue k := by
  cases k <;> rfl
@[simp] theorem State.queue_enter (s : State) (d : DecoderState) (k : TokenKind) : (s.enter d).queue k = s.queue k := by
  cases k <;> rfl
@[simp] theorem State.queue_resume (s : State) (k : TokenKind) : (s.resume).queue k = s.queue k := by
  cases k <;> rfl
@[simp] theorem State.queue_answering (s : State) (a : Answer) (k : TokenKind) : (s.answering a).queue k = s.queue k := by
  cases k <;> rfl
theorem State.queue_claimed_ne (s : State) {k k' : TokenKind} (h : k' ≠ k) (d : Datagram) (q : List Datagram) :
    (s.claimed k d q).queue k' = s.queue k' := by
  cases k <;> cases k' <;> first | rfl | exact absurd rfl h

end Sys2Proof.Machine
end

