-- ==== Sys2Proof/Laws/Ops.lean ====
section
/-! SUPPORT. For each shared operation: what it does if it answers a next state, and when it does. -/

namespace Sys2Proof.Machine

/-! The operand forms by their indices. -/

theorem State.addr_eq (s : State) : s.addr = s.buf.read 2 := rfl
theorem State.cmd_eq (s : State) : s.cmd = s.buf.read 3 := rfl
theorem State.need_eq (s : State) : s.need = zext (s.buf.read 4) + 6 := rfl
theorem State.len_eq (s : State) : s.len = zext (s.buf.read 4) := rfl
theorem State.acks_eq (s : State) : s.acks = shouldAck s.cfg (s.buf.read 2) := rfl

@[simp] theorem andThen_next (s : State) (f : State → Result) : andThen (.next s) f = f s := rfl
@[simp] theorem andThen_fault (e : Fault) (f : State → Result) : andThen (.fault e) f = .fault e := rfl
@[simp] theorem andThen_refused (e : Refusal) (f : State → Result) : andThen (.refused e) f = .refused e := rfl

/-- A sequence answers a next state through a next state of its first part. -/
theorem andThen_eq_next {r : Result} {f : State → Result} {t : State} :
    andThen r f = .next t ↔ ∃ u, r = .next u ∧ f u = .next t := by
  cases r <;> simp [andThen]

/-- An operation with a condition answers a next state where the condition holds, and only there. -/
theorem requires_eq_next {p : Prop} [Decidable p] {r : Result} {t : State} :
    requires p r = .next t ↔ p ∧ r = .next t := by
  unfold requires; split <;> simp_all

theorem requires_of {p : Prop} [Decidable p] (h : p) (r : Result) : requires p r = r := if_pos h

theorem requires_of_not {p : Prop} [Decidable p] (h : ¬p) (r : Result) : requires p r = .refused .notEnabled :=
  if_neg h

/-- An access to BUF goes on where its highest index exists, and only there. -/
theorem reaches_eq_next {s : State} {i : Nat} {r : Result} {t : State} :
    s.reaches i r = .next t ↔ i < s.params.maxFrame ∧ r = .next t := by
  unfold State.reaches; split <;> simp_all

theorem reaches_of {s : State} {i : Nat} (h : i < s.params.maxFrame) (r : Result) : s.reaches i r = r := if_pos h

/-- TXSEQ runs with the direction at receive and at least one byte, and then does exactly `sent`. -/
theorem txSequence_eq_next {d : Datagram} {s t : State} :
    txSequence d s = .next t ↔ s.de = false ∧ d ≠ [] ∧ t = s.sent d := by
  rw [txSequence, requires_eq_next]
  simp only [Host.Outcome.next.injEq, and_assoc, eq_comm]

theorem State.sent_out_bracket (s : State) (d : Datagram) : (s.sent d).out = s.out ++ bracket s.params.tSettle d :=
  State.sent_out s d

/-- ACK under the filter: the bracket around 0x06, or nothing. -/
theorem ackAdmitted_eq_next {s t : State} :
    ackAdmitted s = .next t ↔ (s.acks = true ∧ s.de = false ∧ t = s.sent [0x06]) ∨ (s.acks = false ∧ t = s) := by
  unfold ackAdmitted sendAck
  cases h : s.acks <;> simp [txSequence_eq_next, eq_comm (a := s) (b := t)]

/-- NAK under the filter: the bracket around 0x15, or nothing. -/
theorem nakAdmitted_eq_next {s t : State} :
    nakAdmitted s = .next t ↔ (s.acks = true ∧ s.de = false ∧ t = s.sent [0x15]) ∨ (s.acks = false ∧ t = s) := by
  unfold nakAdmitted sendNak
  cases h : s.acks <;> simp [txSequence_eq_next, eq_comm (a := s) (b := t)]

/-- The three actions of the token arbiter (R112): fallback, relay of a claimed datagram, fallback after a claimed
empty one. -/
theorem handleToken_eq_next {k : TokenKind} {s t : State} :
    handleToken k s = .next t ↔
      (s.queue k = [] ∧ ackAdmitted s = .next t) ∨
      (∃ d q, s.queue k = d :: q ∧ d ≠ [] ∧ s.de = false ∧ t = (s.claimed k d q).sent d) ∨
      (∃ q, s.queue k = [] :: q ∧ ackAdmitted (s.claimed k [] q) = .next t) := by
  unfold handleToken relay fallback
  cases s.queue k with
  | nil => simp
  | cons d q =>
    by_cases hd : d = []
    · simp [hd]
    · simp [hd, txSequence_eq_next]

/-- `is_token()` with its kind (R110, R111). -/
theorem tokenKind_eq_some {s : State} {k : TokenKind} :
    s.tokenKind = some k ↔
      s.dstate = .frameReady ∧ s.buf.read 2 = s.cfg.ownAddress ∧ s.buf.read 4 = 0 ∧ s.buf.read 3 = k.command := by
  unfold State.tokenKind State.addr State.cmd kindOfCommand
  constructor
  · intro h
    split at h
    · next h1 =>
      refine ⟨h1.1, h1.2.1, h1.2.2, ?_⟩
      split at h
      · next h2 => cases h; exact h2
      · split at h
        · next h3 => cases h; exact h3
        · cases h
    · cases h
  · rintro ⟨h1, h2, h3, h4⟩
    rw [if_pos ⟨h1, h2, h3⟩, h4]
    cases k <;> rfl

/-- The verdict function is the acceptance condition of R90. -/
theorem verdict_eq_accepted (c k : Byte) : verdict c k = ChkAccepted c k := rfl

end Sys2Proof.Machine
end

