-- ==== Sys2Proof/Laws/Exec.lean ====
section
/-! SUPPORT. What each operation can do: if exec answers a next state, then under which condition and which state. -/

namespace Sys2Proof.Machine

theorem next_inj {s t : State} : (Host.Outcome.next s : Result) = .next t ↔ t = s := by
  simp [eq_comm (a := s) (b := t)]

theorem exec_syncSkip_eq_next {b : Byte} {s t : State} :
    exec (.syncSkip b) s = .next t ↔ (s.Receiving .waitStart ∧ b ≠ 0x5C) ∧ t = s := by
  simp only [exec, execSyncSkip, requires_eq_next, next_inj]

theorem exec_syncStart_eq_next {s t : State} :
    exec .syncStart s = .next t ↔ s.Receiving .waitStart ∧ 0 < s.params.maxFrame ∧
      t = { s with buf := s.buf.write 0 0x5C, idx := 1, dstate := .accum } := by
  simp only [exec, execSyncStart, requires_eq_next, reaches_eq_next, next_inj]

theorem exec_accOversize_eq_next {b : Byte} {s t : State} :
    exec (.accOversize b) s = .next t ↔
      (s.Receiving .accum ∧ s.params.maxFrame ≤ s.idx) ∧ t = s.enter .invalid := by
  simp only [exec, execAccOversize, requires_eq_next, next_inj]

theorem exec_accShort_eq_next {b : Byte} {s t : State} :
    exec (.accShort b) s = .next t ↔
      (s.Receiving .accum ∧ s.idx < s.params.maxFrame ∧ s.idx + 1 < 6) ∧ t = s.append b := by
  simp only [exec, execAccShort, requires_eq_next, next_inj]

theorem exec_accPartial_eq_next {b : Byte} {s t : State} :
    exec (.accPartial b) s = .next t ↔
      (s.Receiving .accum ∧ s.idx < s.params.maxFrame ∧ 6 ≤ s.idx + 1 ∧ s.idx + 1 < s.need) ∧ t = s.append b := by
  simp only [exec, execAccPartial, requires_eq_next, next_inj]

theorem exec_accComplete_eq_next {b : Byte} {s t : State} :
    exec (.accComplete b) s = .next t ↔
      (s.Receiving .accum ∧ s.idx < s.params.maxFrame ∧ 6 ≤ s.idx + 1 ∧ s.need ≤ s.idx + 1) ∧
        t = (s.append b).judged := by
  simp only [exec, execAccComplete, requires_eq_next, next_inj]

theorem exec_chkCompute_eq_next {s t : State} :
    exec .chkCompute s = .next t ↔
      s.idx = s.need ∧ s.len + 5 < s.params.maxFrame ∧ t = s.answering (.computed s.buf.computed) := by
  simp only [exec, execChkCompute, requires_eq_next, reaches_eq_next, next_inj]

theorem exec_chkMatch_eq_next {v : Byte} {s t : State} :
    exec (.chkMatch v) s = .next t ↔ t = s.answering (.verdict (verdict v v)) := by
  simp only [exec, execChkMatch, next_inj]

theorem exec_chkQuirk_eq_next {s t : State} :
    exec .chkQuirk s = .next t ↔ t = s.answering (.verdict (verdict 0x5C 0xC5)) := by
  simp only [exec, execChkQuirk, next_inj]

theorem exec_chkFail_eq_next {c k : Byte} {s t : State} :
    exec (.chkFail c k) s = .next t ↔
      (c ≠ k ∧ ¬(c = 0x5C ∧ k = 0xC5)) ∧ t = s.answering (.verdict (verdict c k)) := by
  simp only [exec, execChkFail, requires_eq_next, next_inj]

/-- What dispatching an accepted data frame does (R126). -/
theorem dispatchFrame_eq_next {s t : State} :
    dispatchFrame s = .next t ↔ s.len + 5 < s.params.maxFrame ∧
      ((s.acks = true ∧ s.de = false ∧
          t = ((s.sent [0x06]).handOn s.frameOutBytes (fwdScope s.cfg s.addr)).resume) ∨
        (s.acks = false ∧ t = (s.handOn s.frameOutBytes (fwdScope s.cfg s.addr)).resume)) := by
  simp only [dispatchFrame, reaches_eq_next, andThen_eq_next, ackAdmitted_eq_next, next_inj]
  constructor
  · rintro ⟨h, u, ⟨h1, h2, rfl⟩ | ⟨h1, rfl⟩, rfl⟩
    · exact ⟨h, .inl ⟨h1, h2, rfl⟩⟩
    · exact ⟨h, .inr ⟨h1, rfl⟩⟩
  · rintro ⟨h, ⟨h1, h2, rfl⟩ | ⟨h1, rfl⟩⟩
    · exact ⟨h, _, .inl ⟨h1, h2, rfl⟩, rfl⟩
    · exact ⟨h, _, .inr ⟨h1, rfl⟩, rfl⟩

/-- What dispatching a token does: the arbiter on the state with the token recorded, then the return (R127). -/
theorem dispatchGrant_eq_next {k : TokenKind} {s t : State} :
    dispatchGrant k s = .next t ↔
      5 < s.params.maxFrame ∧ ∃ u, handleToken k (s.emit (.token k)) = .next u ∧ t = u.resume := by
  simp only [dispatchGrant, reaches_eq_next, andThen_eq_next, next_inj]

theorem exec_frameRtoken_eq_next {h a k : Byte} {s t : State} :
    exec (.frameRtoken h a k) s = .next t ↔
      (s.stopped = false ∧ s.HoldsFrame (encode (.frameRtoken h a k)) ∧ a = s.cfg.ownAddress) ∧
        dispatchGrant .read s = .next t := by
  simp only [exec, execFrameRtoken, requires_eq_next]

theorem exec_frameWtoken_eq_next {h a k : Byte} {s t : State} :
    exec (.frameWtoken h a k) s = .next t ↔
      (s.stopped = false ∧ s.HoldsFrame (encode (.frameWtoken h a k)) ∧ a = s.cfg.ownAddress) ∧
        dispatchGrant .write s = .next t := by
  simp only [exec, execFrameWtoken, requires_eq_next]

theorem exec_frameData_eq_next {h a c k : Byte} {p : Datagram} {s t : State} :
    exec (.frameData h a c p k) s = .next t ↔
      (s.stopped = false ∧ s.HoldsFrame (encode (.frameData h a c p k)) ∧ s.isToken = false) ∧
        dispatchFrame s = .next t := by
  simp only [exec, execFrameData, requires_eq_next]

theorem exec_dispatchData_eq_next {s t : State} :
    exec .dispatchData s = .next t ↔
      (s.stopped = false ∧ s.dstate = .frameReady ∧ s.isToken = false) ∧ dispatchFrame s = .next t := by
  simp only [exec, execDispatchData, requires_eq_next]

theorem exec_dispatchToken_eq_next {s t : State} :
    exec .dispatchToken s = .next t ↔
      ∃ k, s.tokenKind = some k ∧ s.stopped = false ∧ dispatchGrant k s = .next t := by
  simp only [exec, execDispatchToken]
  cases s.tokenKind <;> simp [requires_eq_next]

theorem exec_dispatchChkfail_eq_next {s t : State} :
    exec .dispatchChkfail s = .next t ↔
      (s.stopped = false ∧ s.dstate = .chkFailed) ∧ 2 < s.params.maxFrame ∧
        ((s.acks = true ∧ s.de = false ∧ t = (s.sent [0x15]).resume) ∨ (s.acks = false ∧ t = s.resume)) := by
  simp only [exec, execDispatchChkfail, requires_eq_next, reaches_eq_next, andThen_eq_next, nakAdmitted_eq_next,
    next_inj]
  constructor
  · rintro ⟨h, h', u, ⟨h1, h2, rfl⟩ | ⟨h1, rfl⟩, rfl⟩
    · exact ⟨h, h', .inl ⟨h1, h2, rfl⟩⟩
    · exact ⟨h, h', .inr ⟨h1, rfl⟩⟩
  · rintro ⟨h, h', ⟨h1, h2, rfl⟩ | ⟨h1, rfl⟩⟩
    · exact ⟨h, h', _, .inl ⟨h1, h2, rfl⟩, rfl⟩
    · exact ⟨h, h', _, .inr ⟨h1, rfl⟩, rfl⟩

theorem exec_dispatchInvalid_eq_next {s t : State} :
    exec .dispatchInvalid s = .next t ↔ (s.stopped = false ∧ s.dstate = .invalid) ∧ t = s.resume := by
  simp only [exec, execDispatchInvalid, requires_eq_next, next_inj]

theorem exec_ackDecide_eq_next {s t : State} :
    exec .ackDecide s = .next t ↔
      (s.dstate ≠ .waitStart ∧ s.dstate ≠ .accum) ∧ 4 < s.params.maxFrame ∧
        t = s.answering (.decision s.ackDecision) := by
  simp only [exec, execAckDecide, requires_eq_next, reaches_eq_next, next_inj]

theorem exec_ackSend_eq_next {s t : State} :
    exec .ackSend s = .next t ↔ s.de = false ∧ t = s.sent [0x06] := by
  simp [exec, execAckSend, sendAck, txSequence_eq_next]

theorem exec_nakSend_eq_next {s t : State} :
    exec .nakSend s = .next t ↔ s.de = false ∧ t = s.sent [0x15] := by
  simp [exec, execNakSend, sendNak, txSequence_eq_next]

theorem exec_txseq_eq_next {d : Datagram} {s t : State} :
    exec (.txseq d) s = .next t ↔ s.de = false ∧ d ≠ [] ∧ t = s.sent d := by
  simp only [exec, execTxseq, txSequence_eq_next]

theorem exec_tokMatch_eq_next {h a k : Byte} {kind : TokenKind} {s t : State} :
    exec (.tokMatch h a kind k) s = .next t ↔
      s.frameBytes = encode (.tokMatch h a kind k) ∧ 5 < s.params.maxFrame ∧
        t = s.answering (.token s.tokenKind) := by
  simp only [exec, execTokMatch, requires_eq_next, reaches_eq_next, next_inj]

theorem exec_tokRelay_eq_next {kind : TokenKind} {d : Datagram} {s t : State} :
    exec (.tokRelay kind d) s = .next t ↔
      (s.Granted kind ∧ (s.queue kind).head? = some d ∧ d ≠ []) ∧ 5 < s.params.maxFrame ∧ s.de = false ∧
        t = (s.claimed kind d (s.queue kind).tail).sent d := by
  simp only [exec, execTokRelay, requires_eq_next, reaches_eq_next, txSequence_eq_next, State.claimed_de]
  tauto

theorem exec_tokFallback_eq_next {kind : TokenKind} {s t : State} :
    exec (.tokFallback kind) s = .next t ↔
      (s.Granted kind ∧ s.queue kind = []) ∧ 5 < s.params.maxFrame ∧ ackAdmitted s = .next t := by
  simp only [exec, execTokFallback, requires_eq_next, reaches_eq_next, fallback]

theorem exec_tokEmpty_eq_next {kind : TokenKind} {s t : State} :
    exec (.tokEmpty kind) s = .next t ↔
      (s.Granted kind ∧ (s.queue kind).head? = some []) ∧ 5 < s.params.maxFrame ∧
        ackAdmitted (s.claimed kind [] (s.queue kind).tail) = .next t := by
  simp only [exec, execTokEmpty, requires_eq_next, reaches_eq_next, fallback]

theorem exec_cfgWrite_eq_next {f : CfgField} {v : Byte} {s t : State} :
    exec (.cfgWrite f v) s = .next t ↔ f.admits v = true ∧ t = { s with cfg := writeField s.cfg v f } := by
  simp only [exec, execCfgWrite]
  split
  · next h => rw [next_inj]; exact ⟨fun e => ⟨h, e⟩, fun e => e.2⟩
  · next h => simp [h]

theorem exec_rdqPush_eq_next {d : Datagram} {s t : State} :
    exec (.rdqPush d) s = .next t ↔ t = { s with rdq := s.rdq ++ [d] } := by
  simp only [exec, execRdqPush, next_inj]

theorem exec_wrqPush_eq_next {d : Datagram} {s t : State} :
    exec (.wrqPush d) s = .next t ↔ t = { s with wrq := s.wrq ++ [d] } := by
  simp only [exec, execWrqPush, next_inj]

theorem exec_reset_eq_next {s t : State} :
    exec .reset s = .next t ↔
      t = { s with dstate := .waitStart, idx := 0, de := false, stopped := false, cfg := s.params.cfgInit, out := [] } := by
  simp only [exec, execReset, next_inj]

theorem exec_stop_eq_next {s t : State} :
    exec .stop s = .next t ↔ t = { s with stopped := true, idx := 0, dstate := .waitStart } := by
  simp only [exec, execStop, next_inj]

theorem exec_addrSms40_eq_next {s t : State} :
    exec .addrSms40 s = .next t ↔ t = s.answering (.admits (shouldAck s.cfg 0x16)) := by
  simp only [exec, execAddrSms40, next_inj]

theorem exec_addrRmu40_eq_next {s t : State} :
    exec .addrRmu40 s = .next t ↔ t = s.answering (.admits (shouldAck s.cfg 0x19)) := by
  simp only [exec, execAddrRmu40, next_inj]

theorem exec_addrModbus40_eq_next {s t : State} :
    exec .addrModbus40 s = .next t ↔ t = s.answering (.admits (shouldAck s.cfg 0x20)) := by
  simp only [exec, execAddrModbus40, next_inj]

theorem exec_addrOther_eq_next {a : Byte} {s t : State} :
    exec (.addrOther a) s = .next t ↔
      (a ≠ 0x16 ∧ a ≠ 0x19 ∧ a ≠ 0x20) ∧ t = s.answering (.admits (shouldAck s.cfg a)) := by
  simp only [exec, execAddrOther, requires_eq_next, next_inj]

/-- Where a step that answers a next state comes from: an operation that was fetched, or a settled state. -/
theorem step_eq_next {s t : State} :
    step s = .next t ↔ s.params.Legal ∧ ((∃ i u, fetch s = .run i u ∧ exec i u = .next t) ∨ fetch s = .settled t) := by
  unfold step
  split
  · next h =>
    rw [and_iff_right h]
    cases fetch s <;> simp
  · next h => simp [h]

end Sys2Proof.Machine
end

