-- ==== Sys2Proof/Laws/PerInstr.lean ====
section
/-! SUPPORT. Per operation: a well-formed operation belongs to some space, so that its word can be presented. -/

namespace Sys2Proof.Laws.HasSpace

/-- Some space admits the operation. -/
def Statement (i : Instr) : Prop := i.WellFormed = true → ∃ sp : Space, sp.Fits i

theorem syncSkip (b : Byte) : Statement (.syncSkip b) := fun w => ⟨_, rfl, by simpa [Instr.WellFormed] using w⟩

theorem syncStart : Statement .syncStart := fun _ => ⟨_, rfl⟩

theorem accOversize (b : Byte) : Statement (.accOversize b) := fun _ => ⟨_, 0, 0, 0, rfl, by simp⟩

theorem accShort (b : Byte) : Statement (.accShort b) := fun _ => ⟨_, 6, 0, 6, rfl, by simp⟩

theorem accPartial (b : Byte) : Statement (.accPartial b) := fun _ => ⟨_, 7, 5, 7, rfl, by simp⟩

theorem accComplete (b : Byte) : Statement (.accComplete b) := fun _ => ⟨_, 6, 5, 6, rfl, by simp⟩

theorem chkCompute : Statement .chkCompute := fun _ => ⟨_, rfl⟩

theorem chkMatch (v : Byte) : Statement (.chkMatch v) := fun _ => ⟨_, rfl⟩

theorem chkQuirk : Statement .chkQuirk := fun _ => ⟨_, rfl⟩

theorem chkFail (c k : Byte) : Statement (.chkFail c k) := fun w => by
  simp only [Instr.WellFormed, ChkAccepted, Bool.not_eq_true', Bool.or_eq_false_iff, beq_eq_false_iff_ne] at w
  exact ⟨_, rfl, w.1, fun h => by simp [h.1, h.2] at w⟩

theorem frameRtoken (h a k : Byte) : Statement (.frameRtoken h a k) := fun _ => ⟨_, rfl⟩

theorem frameWtoken (h a k : Byte) : Statement (.frameWtoken h a k) := fun _ => ⟨_, rfl⟩

theorem frameData (h a c : Byte) (p : Datagram) (k : Byte) : Statement (.frameData h a c p k) := fun w =>
  ⟨_, a + 1, rfl, by simp [Instr.WellFormed] at w; exact w.1, fun h => absurd h.1 (by bv_omega)⟩

theorem dispatchData : Statement .dispatchData := fun _ => ⟨_, rfl⟩

theorem dispatchToken : Statement .dispatchToken := fun _ => ⟨_, rfl⟩

theorem dispatchChkfail : Statement .dispatchChkfail := fun _ => ⟨_, rfl⟩

theorem dispatchInvalid : Statement .dispatchInvalid := fun _ => ⟨_, rfl⟩

theorem ackDecide : Statement .ackDecide := fun _ => ⟨_, rfl⟩

theorem ackSend : Statement .ackSend := fun _ => ⟨_, rfl⟩

theorem nakSend : Statement .nakSend := fun _ => ⟨_, rfl⟩

theorem txseq (d : Datagram) : Statement (.txseq d) := fun w => ⟨_, rfl, by simpa [Instr.WellFormed] using w⟩

theorem tokMatch (h a : Byte) (kind : TokenKind) (k : Byte) : Statement (.tokMatch h a kind k) := fun _ => ⟨_, rfl⟩

theorem tokRelay (kind : TokenKind) (d : Datagram) : Statement (.tokRelay kind d) := fun w => ⟨_, rfl, by simpa [Instr.WellFormed] using w⟩

theorem tokFallback (kind : TokenKind) : Statement (.tokFallback kind) := fun _ => ⟨_, rfl⟩

theorem tokEmpty (kind : TokenKind) : Statement (.tokEmpty kind) := fun _ => ⟨_, rfl⟩

theorem cfgWrite (f : CfgField) (v : Byte) : Statement (.cfgWrite f v) := fun w => ⟨_, rfl, w⟩

theorem rdqPush (d : Datagram) : Statement (.rdqPush d) := fun _ => ⟨_, rfl⟩

theorem wrqPush (d : Datagram) : Statement (.wrqPush d) := fun _ => ⟨_, rfl⟩

theorem reset : Statement .reset := fun _ => ⟨_, rfl⟩

theorem stop : Statement .stop := fun _ => ⟨_, rfl⟩

theorem addrSms40 : Statement .addrSms40 := fun _ => ⟨_, rfl⟩

theorem addrRmu40 : Statement .addrRmu40 := fun _ => ⟨_, rfl⟩

theorem addrModbus40 : Statement .addrModbus40 := fun _ => ⟨_, rfl⟩

theorem addrOther (a : Byte) : Statement (.addrOther a) := fun w => ⟨_, rfl, by simpa [Instr.WellFormed, and_assoc] using w⟩

end Sys2Proof.Laws.HasSpace
end

