-- ==== Sys2Proof/Laws/Step.lean ====
section
/-! SUPPORT. What a step finds to do: for each way of fetching, exactly when it gives an operation to run and when a
settled state. -/

namespace Sys2Proof.Machine

theorem Fetched.run_inj {i j : Instr} {s t : State} : Fetched.run i s = .run j t ↔ j = i ∧ t = s :=
  ⟨fun h => by cases h; exact ⟨rfl, rfl⟩, fun h => by rw [h.1, h.2]⟩

theorem Fetched.settled_inj {s t : State} : Fetched.settled s = .settled t ↔ t = s :=
  ⟨fun h => by cases h; rfl, fun h => by rw [h]⟩

/-- A word of a space gives the operation it decodes to, on the same state. -/
theorem fetchWord_eq_run {sp : Space} {ws : List Byte} {s t : State} {i : Instr} :
    fetchWord sp ws s = .run i t ↔ decode sp ws = .ok i ∧ t = s := by
  unfold fetchWord
  cases decode sp ws <;> simp [eq_comm]

theorem fetchWord_ne_settled {sp : Space} {ws : List Byte} {s t : State} : fetchWord sp ws s ≠ .settled t := by
  unfold fetchWord
  cases decode sp ws <;> simp

/-- The operations the block's turn runs, and the states it runs them on (R125). -/
theorem fetchBlock_eq_run {s t : State} {i : Instr} :
    fetchBlock s = .run i t ↔ s.stopped = false ∧
      ((s.Receives ∧ ∃ b rest, s.rxq = b :: rest ∧ decode s.rxSpace [b] = .ok i ∧ t = { s with rxq := rest }) ∨
        (s.dstate = .frameReady ∧ i = s.frameOp ∧ t = s) ∨
        (s.dstate = .chkFailed ∧ i = .dispatchChkfail ∧ t = s) ∨
        (s.dstate = .invalid ∧ i = .dispatchInvalid ∧ t = s)) := by
  unfold fetchBlock State.takeByte State.Receives
  cases hs : s.stopped
  · cases hd : s.dstate <;> cases hq : s.rxq <;> simp [fetchWord_eq_run, Fetched.run_inj, -Fetched.run.injEq]
  · simp

/-- The block's turn settles when no step is enabled, and then nothing changes (R139). -/
theorem fetchBlock_eq_settled {s t : State} : fetchBlock s = .settled t ↔ s.Quiescent ∧ t = s := by
  unfold fetchBlock State.takeByte State.Quiescent State.Receives
  cases hs : s.stopped
  · cases hd : s.dstate <;> cases hq : s.rxq <;>
      simp [fetchWord_ne_settled, Fetched.settled_inj, -Fetched.settled.injEq]
  · simp [Fetched.settled_inj, -Fetched.settled.injEq]

/-- Where the block moves, what is fetched is what its turn gives. -/
theorem fetch_of_blockMoves {s u : State} (h : BlockMoves s u) : fetch s = fetchBlock u := by
  obtain ⟨_, hp, ⟨ha, rfl⟩ | ⟨ha, rfl⟩⟩ := h
  · simp [fetch, hp, ha]
  · cases hs : s.agenda with
    | nil => simp [hs] at ha
    | cons t r => simp [hs] at ha; subst ha; simp [fetch, hp, hs, fetchTurn]

/-- With no operation presented alone, an operation comes from the block's turn or from a word of the host. -/
theorem fetch_eq_run {s t : State} {i : Instr} (hp : s.probe = none) :
    fetch s = .run i t ↔
      (s.agenda = [] ∧ fetchBlock s = .run i t) ∨
      (∃ r, s.agenda = .block :: r ∧ fetchBlock { s with agenda := r } = .run i t) ∨
      (∃ ws r, s.agenda = .host ws :: r ∧ decode .host ws = .ok i ∧ t = { s with agenda := r }) := by
  unfold fetch
  cases ha : s.agenda with
  | nil => simp [hp]
  | cons m r => cases m <;> simp [hp, fetchTurn, fetchWord_eq_run]

/-- With no operation presented alone, a settled state comes from an idle turn of the block, a byte of the bus or a
record the host consumes. -/
theorem fetch_eq_settled {s t : State} (hp : s.probe = none) :
    fetch s = .settled t ↔
      (s.agenda = [] ∧ s.Quiescent ∧ t = s) ∨
      (∃ r, s.agenda = .block :: r ∧ s.Quiescent ∧ t = { s with agenda := r }) ∨
      (∃ b r, s.agenda = .busByte b :: r ∧ t = { s with agenda := r, rxq := s.rxq ++ [b] }) ∨
      (∃ r, s.agenda = .consume :: r ∧ t = { s with agenda := r, fout := s.fout.tail }) := by
  unfold fetch
  cases ha : s.agenda with
  | nil => simp [hp, fetchBlock_eq_settled]
  | cons m r =>
    cases m <;>
      simp [hp, fetchTurn, fetchBlock_eq_settled, fetchWord_ne_settled, Fetched.settled_inj, -Fetched.settled.injEq]

end Sys2Proof.Machine
end

