-- ==== Sys2Proof/Tests/Slice0.lean ====
section
/-! SUPPORT. Tests: ill-formed terms, decoding of words written out from the spec, one step per operation with the
result spec/95_test_vectors.md gives (the vector's number stands before each), and for every statement with hypotheses
concrete states that meet them. -/

namespace Sys2Proof.Tests

open Sys2Proof.Machine

/-! What the tests are built from. -/

/-- `sendAcknowledge 1, ackModbus40 1, ackRmu40 1, ownAddress 0x20`, the others 0. -/
def gateway : Cfg where
  sendAcknowledge := true
  ackAll := false
  ackModbus40 := true
  ackSms40 := false
  ackRmu40 := true
  forwardAll := false
  ownAddress := 0x20

/-- The decoder in state `d` with exactly `ws` in the buffer. -/
def holding (d : DecoderState) (ws : List Byte) : State :=
  { State.reset with buf := Mem.load [] 0 ws, idx := ws.length, dstate := d, cfg := gateway }

/-- The state with another MAX_FRAME. -/
def sized (n : Nat) (s : State) : State := s.withMaxFrame n

/-- The block waiting for a start byte with these bytes in RXQ. -/
def hearing (bs : List Byte) : State := { State.reset with cfg := gateway, rxq := bs }

/-- The next state's value under `f`, if there is a next state. -/
def after {α : Type} (r : Result) (f : State → α) : Option α :=
  match r with
  | .next t => some (f t)
  | .fault _ | .refused _ => none

/-- Where the decoder is. -/
def place (s : State) : DecoderState × Nat := (s.dstate, s.idx)

def wtoken : List Byte := [0x5C, 0x00, 0x20, 0x6B, 0x00, 0x4B]
def rtoken : List Byte := [0x5C, 0x00, 0x20, 0x69, 0x00, 0x49]
def rmuFrame : List Byte := [0x5C, 0x00, 0x19, 0x60, 0x00, 0x79]

/-! Ill-formed terms: one for each check of `Instr.WellFormed`. -/

theorem test_wf_syncSkip_start : (Instr.syncSkip 0x5C).WellFormed = false := by decide
theorem test_wf_chkFail_equal : (Instr.chkFail 0x4B 0x4B).WellFormed = false := by decide
theorem test_wf_chkFail_quirk : (Instr.chkFail 0x5C 0xC5).WellFormed = false := by decide
theorem test_wf_frameRtoken_checksum : (Instr.frameRtoken 0x00 0x20 0x48).WellFormed = false := by decide
theorem test_wf_frameWtoken_checksum : (Instr.frameWtoken 0x00 0x20 0x4A).WellFormed = false := by decide
theorem test_wf_frameData_checksum : (Instr.frameData 0x00 0x19 0x60 [] 0x78).WellFormed = false := by decide
theorem test_wf_frameData_payload_too_long :
    (Instr.frameData 0x00 0x00 0x00 (List.replicate 256 0x00) 0x00).WellFormed = false := by decide +kernel
theorem test_wf_tokMatch_checksum : (Instr.tokMatch 0x00 0x20 .write 0x4A).WellFormed = false := by decide
theorem test_wf_txseq_empty : (Instr.txseq []).WellFormed = false := by decide
theorem test_wf_tokRelay_empty : (Instr.tokRelay .read []).WellFormed = false := by decide
theorem test_wf_cfgWrite_too_wide : (Instr.cfgWrite .ackAll 0x02).WellFormed = false := by decide
theorem test_wf_addrOther_known : (Instr.addrOther 0x16).WellFormed = false ∧ (Instr.addrOther 0x19).WellFormed = false ∧
    (Instr.addrOther 0x20).WellFormed = false := by decide
/-- V41-15, V41-4: a frame that matches and a frame accepted by the quirk are well formed. -/
theorem test_wf_accepted : (Instr.frameData 0x00 0x20 0x68 [0x01, 0x02] 0x49).WellFormed = true ∧
    (Instr.frameData 0x00 0x20 0x68 [0x15] 0xC5).WellFormed = true := by decide

/-! Decoding: a word of every constructor. -/

theorem test_decode_syncSkip : decode .rxWait [0x06] = .ok (.syncSkip 0x06) := rfl
theorem test_decode_syncStart : decode .rxWait [0x5C] = .ok .syncStart := rfl
theorem test_decode_accOversize : decode (.rxAccum 128 128 129) [0x5C] = .ok (.accOversize 0x5C) := rfl
theorem test_decode_accShort : decode (.rxAccum 128 4 6) [0x00] = .ok (.accShort 0x00) := rfl
theorem test_decode_accPartial : decode (.rxAccum 128 5 8) [0x01] = .ok (.accPartial 0x01) := rfl
theorem test_decode_accComplete : decode (.rxAccum 128 7 8) [0x49] = .ok (.accComplete 0x49) := rfl
theorem test_decode_chkCompute : decode .check [] = .ok .chkCompute := rfl
theorem test_decode_chkMatch : decode .check [0x4B, 0x4B] = .ok (.chkMatch 0x4B) := rfl
theorem test_decode_chkQuirk : decode .check [0x5C, 0xC5] = .ok .chkQuirk := rfl
theorem test_decode_chkFail : decode .check [0xC5, 0x5C] = .ok (.chkFail 0xC5 0x5C) := rfl
theorem test_decode_frameRtoken : decode (.frame 0x20) rtoken = .ok (.frameRtoken 0x00 0x20 0x49) := rfl
theorem test_decode_frameWtoken : decode (.frame 0x20) wtoken = .ok (.frameWtoken 0x00 0x20 0x4B) := rfl
theorem test_decode_frameData : decode (.frame 0x20) [0x5C, 0x07, 0x16, 0x68, 0x02, 0x5C, 0x5D, 0x7A] =
    .ok (.frameData 0x07 0x16 0x68 [0x5C, 0x5D] 0x7A) := rfl
/-- R120: a token for another device is data. -/
theorem test_decode_foreign_token : decode (.frame 0x20) [0x5C, 0x00, 0x19, 0x69, 0x00, 0x70] =
    .ok (.frameData 0x00 0x19 0x69 [] 0x70) := rfl
theorem test_decode_tokMatch : decode .recognizer rtoken = .ok (.tokMatch 0x00 0x20 .read 0x49) ∧
    decode .recognizer wtoken = .ok (.tokMatch 0x00 0x20 .write 0x4B) := ⟨rfl, rfl⟩
theorem test_decode_no_token : decode .recognizer [0x5C, 0x00, 0x20, 0x6A, 0x00, 0x4A] = .error .notToken := rfl
theorem test_decode_dispatchData : decode .dispatch [0x00] = .ok .dispatchData := rfl
theorem test_decode_dispatchToken : decode .dispatch [0x01] = .ok .dispatchToken := rfl
theorem test_decode_dispatchChkfail : decode .dispatch [0x02] = .ok .dispatchChkfail := rfl
theorem test_decode_dispatchInvalid : decode .dispatch [0x03] = .ok .dispatchInvalid := rfl
theorem test_decode_ackDecide : decode .policy [] = .ok .ackDecide := rfl
theorem test_decode_ackSend : decode .resp [0b00000110] = .ok .ackSend := rfl
theorem test_decode_nakSend : decode .resp [0b00010101] = .ok .nakSend := rfl
theorem test_decode_txseq : decode .seq [0xAA, 0xBB] = .ok (.txseq [0xAA, 0xBB]) := rfl
theorem test_decode_tokRelay : decode (.dgram .read) [0x11] = .ok (.tokRelay .read [0x11]) := rfl
theorem test_decode_tokEmpty : decode (.dgram .write) [] = .ok (.tokEmpty .write) := rfl
theorem test_decode_tokFallback : decode (.fallback .read) [0x06] = .ok (.tokFallback .read) := rfl
theorem test_decode_cfgWrite : decode .host [0x00, 0x06, 0x20] = .ok (.cfgWrite .ownAddress 0x20) ∧
    decode .host [0x00, 0x04, 0x01] = .ok (.cfgWrite .ackRmu40 0x01) := ⟨rfl, rfl⟩
theorem test_decode_rdqPush : decode .host [0x01, 0xAA] = .ok (.rdqPush [0xAA]) := rfl
theorem test_decode_wrqPush : decode .host [0x02] = .ok (.wrqPush []) := rfl
theorem test_decode_reset : decode .host [0x03] = .ok .reset := rfl
theorem test_decode_stop : decode .host [0x04] = .ok .stop := rfl
theorem test_decode_addrSms40 : decode .address [0b00010110] = .ok .addrSms40 := rfl
theorem test_decode_addrRmu40 : decode .address [0b00011001] = .ok .addrRmu40 := rfl
theorem test_decode_addrModbus40 : decode .address [0b00100000] = .ok .addrModbus40 := rfl
theorem test_decode_addrOther : decode .address [0x42] = .ok (.addrOther 0x42) := rfl
/-- R52, R56: a frame must begin with 0x5C and have length + 6 bytes. -/
theorem test_decode_rejects_by_name : decode (.frame 0x20) [0x5D, 0x00, 0x20, 0x6B, 0x00, 0x4B] = .error .noStart ∧
    decode (.frame 0x20) [0x5C, 0x00, 0x20, 0x6B, 0x01, 0x4B] = .error .lengthMismatch ∧
    decode (.frame 0x20) [0x5C, 0x00] = .error .wrongLength ∧ decode .resp [0x07] = .error .unknownSelector ∧
    decode .host [0x00, 0x07, 0x00] = .error .unknownField ∧ decode .host [0x00, 0x01, 0x02] = .error .valueTooWide :=
  ⟨rfl, rfl, rfl, rfl, rfl, rfl⟩

/-! The table's words, and the step that fetches them first after reset. -/

theorem test_table_words : decodeTableWord 8 0x5C = some .syncStart ∧ decodeTableWord 16 0x5CC5 = some .chkQuirk ∧
    decodeTableWord 8 0x06 = some .ackSend ∧ decodeTableWord 8 0x15 = some .nakSend ∧
    decodeTableWord 8 0x16 = some .addrSms40 ∧ decodeTableWord 8 0x00 = some (.syncSkip 0x00) ∧
    decodeTableWord 40 0x5C00206B00 = some (.frameWtoken 0x00 0x20 0x00) ∧
    decodeTableWord 40 0x5C00196000 = some (.frameData 0x00 0x19 0x60 [] 0x00) := by decide
theorem test_fetch_syncStart : after (step (State.reset.withFetchWord 8 0x5C)) place = some (.accum, 1) := by decide
theorem test_fetch_frameData :
    after (step (State.reset.withFetchWord 40 0x5C00196000)) (·.fout) =
      some [⟨[0x5C, 0x00, 0x19, 0x60, 0x00, 0x00], true⟩] := by decide
theorem test_fetch_frameWtoken :
    after (step (State.reset.withFetchWord 40 0x5C00206B00)) (·.out) = some [.token .write] := by decide

/-! One step of each operation. -/

/-- V40-1 -/
theorem test_syncSkip : after (step (hearing [0x06, 0x15])) (fun t => (place t, t.rxq)) =
    some ((.waitStart, 0), [0x15]) := by decide
/-- V40-2 -/
theorem test_syncStart : after (step (hearing [0x5C])) (fun t => (place t, t.buf)) =
    some ((.accum, 1), [(0, 0x5C)]) := by decide
/-- V40-11 -/
theorem test_accOversize : after (exec (.accOversize 0x5C) { State.reset with dstate := .accum, idx := 128 })
    (fun t => (place t, t.buf, t.out)) = some ((.invalid, 128), [], [.outcome 2]) := by decide
/-- V40-3 -/
theorem test_accShort : after (exec (.accShort 0x20) (holding .accum [0x5C, 0x00])) (fun t => (place t, t.frameBytes)) =
    some ((.accum, 3), [0x5C, 0x00, 0x20]) := by decide
/-- V40-6 -/
theorem test_accPartial : after (exec (.accPartial 0x01) (holding .accum [0x5C, 0x00, 0x20, 0x68, 0x02])) place =
    some (.accum, 6) := by decide
/-- V40-4, V40-5 -/
theorem test_accComplete :
    after (exec (.accComplete 0x4B) (holding .accum [0x5C, 0x00, 0x20, 0x6B, 0x00])) (fun t => (place t, t.out)) =
      some ((.frameReady, 6), [.outcome 1]) ∧
    after (exec (.accComplete 0x4A) (holding .accum [0x5C, 0x00, 0x20, 0x6B, 0x00])) (fun t => (place t, t.out)) =
      some ((.chkFailed, 6), [.outcome 3]) := by decide
/-- V41-4: the quirk, through ACC.COMPLETE. -/
theorem test_accComplete_quirk :
    after (exec (.accComplete 0xC5) (holding .accum [0x5C, 0x00, 0x20, 0x68, 0x01, 0x15])) place =
      some (.frameReady, 7) := by decide
/-- V41-12: `hdr1` is inside the range. -/
theorem test_chkCompute :
    after (exec .chkCompute (holding .frameReady [0x5C, 0x07, 0x20, 0x6B, 0x00, 0x4C])) (·.answer) =
      some (some (.computed 0x4C)) := by decide
/-- V41-11 -/
theorem test_chkMatch : after (exec (.chkMatch 0xC5) State.reset) (·.answer) = some (some (.verdict true)) := by decide
/-- V41-6 -/
theorem test_chkQuirk : after (exec .chkQuirk State.reset) (·.answer) = some (some (.verdict true)) := by decide
/-- V41-8, V41-10 -/
theorem test_chkFail : after (exec (.chkFail 0x5C 0x00) State.reset) (·.answer) = some (some (.verdict false)) ∧
    after (exec (.chkFail 0xC5 0x5C) State.reset) (·.answer) = some (some (.verdict false)) := by decide
/-- V43-1 -/
theorem test_frameRtoken :
    after (exec (.frameRtoken 0x00 0x20 0x49) { holding .frameReady rtoken with rdq := [[0x11, 0x22, 0x33]] })
      (fun t => (t.out, t.rdq)) =
      some (.token .read :: .claim .read [0x11, 0x22, 0x33] :: bracket 1 [0x11, 0x22, 0x33], []) := by decide
/-- S4 -/
theorem test_frameWtoken : after (exec (.frameWtoken 0x00 0x20 0x4B) (holding .frameReady wtoken)) (·.out) =
    some (.token .write :: bracket 1 [0x06]) := by decide
/-- V42-10 -/
theorem test_frameData : after (exec (.frameData 0x00 0x19 0x60 [] 0x79) (holding .frameReady rmuFrame)) (·.out) =
    some (bracket 1 [0x06] ++ [.frameOut rmuFrame false]) := by decide
/-- V44-2 -/
theorem test_dispatchData :
    after (exec .dispatchData
      { holding .frameReady [0x5C, 0x00, 0x20, 0x68, 0x02, 0x01, 0x02, 0x49] with
        params := { Config.defaults with fwdFormat := .noChecksum } }) (fun t => (t.out, place t)) =
      some (bracket 1 [0x06] ++ [.frameOut [0x5C, 0x00, 0x20, 0x68, 0x02, 0x01, 0x02] true], (.waitStart, 0)) := by
  decide
/-- V43-11 -/
theorem test_dispatchData_foreign_token :
    after (exec .dispatchData { holding .frameReady [0x5C, 0x00, 0x19, 0x69, 0x00, 0x70] with rdq := [[0x11]] })
      (fun t => (t.out, t.rdq)) =
      some (bracket 1 [0x06] ++ [.frameOut [0x5C, 0x00, 0x19, 0x69, 0x00, 0x70] false], [[0x11]]) := by decide
/-- V43-6 -/
theorem test_dispatchToken :
    after (exec .dispatchToken { holding .frameReady wtoken with wrq := [[], [0xAA]] }) (fun t => (t.out, t.wrq)) =
      some (.token .write :: .claim .write [] :: bracket 1 [0x06], [[0xAA]]) := by decide
/-- V43-2 -/
theorem test_dispatchToken_other_queue :
    after (exec .dispatchToken { holding .frameReady rtoken with wrq := [[0xAA]] }) (fun t => (t.out, t.wrq)) =
      some (.token .read :: bracket 1 [0x06], [[0xAA]]) := by decide
/-- V43-12 -/
theorem test_dispatchChkfail :
    after (exec .dispatchChkfail
      { holding .chkFailed [0x5C, 0x00, 0x20, 0x6B, 0x00, 0x4A] with wrq := [[0xAA]] }) (fun t => (t.out, t.wrq)) =
      some (bracket 1 [0x15], [[0xAA]]) := by decide
/-- V44-10 -/
theorem test_dispatchInvalid :
    after (exec .dispatchInvalid { State.reset with dstate := .invalid, idx := 128 }) (fun t => (place t, t.out)) =
      some ((.waitStart, 0), []) := by decide
/-- V42-10, V42-12 -/
theorem test_ackDecide : after (exec .ackDecide (holding .frameReady rmuFrame)) (·.answer) =
      some (some (.decision (some .sendAck))) ∧
    after (exec .ackDecide (holding .chkFailed [0x5C, 0x00, 0x20, 0x6B, 0x00, 0x4A])) (·.answer) =
      some (some (.decision (some .sendNak))) := by decide
/-- R98 -/
theorem test_ackSend : after (exec .ackSend State.reset) (fun t => (t.out, t.de)) =
    some ([.dir true, .wait 1, .tx [0x06], .flush, .wait 1, .dir false], false) := by decide
/-- V42-17 -/
theorem test_nakSend : after (exec .nakSend State.reset) (fun t => (t.out, t.de)) =
    some ([.dir true, .wait 1, .tx [0x15], .flush, .wait 1, .dir false], false) := by decide
/-- R100 -/
theorem test_txseq : after (exec (.txseq [0xAA, 0xBB]) State.reset) (fun t => (t.out, t.txs)) =
    some ([.dir true, .wait 1, .tx [0xAA, 0xBB], .flush, .wait 1, .dir false], []) := by decide
/-- V43-7: `hdr1` is ignored. -/
theorem test_tokMatch :
    after (exec (.tokMatch 0x07 0x20 .write 0x4C) (holding .frameReady [0x5C, 0x07, 0x20, 0x6B, 0x00, 0x4C])) (·.answer) =
      some (some (.token (some .write))) := by decide
/-- V43-12: not a token after a checksum failure. -/
theorem test_tokMatch_failed :
    after (exec (.tokMatch 0x00 0x20 .write 0x4A) (holding .chkFailed [0x5C, 0x00, 0x20, 0x6B, 0x00, 0x4A])) (·.answer) =
      some (some (.token none)) := by decide
/-- V43-4: the relay ignores `sendAcknowledge`. -/
theorem test_tokRelay :
    after (exec (.tokRelay .read [0x11, 0x22])
      { holding .frameReady rtoken with cfg := { Config.cfgInit with ownAddress := 0x20 }, rdq := [[0x11, 0x22], [0x33]] })
      (fun t => (t.out, t.rdq)) = some (.claim .read [0x11, 0x22] :: bracket 1 [0x11, 0x22], [[0x33]]) := by decide
/-- V43-5 -/
theorem test_tokFallback :
    after (exec (.tokFallback .read)
      { holding .frameReady rtoken with cfg := { gateway with sendAcknowledge := false } }) (·.out) = some [] := by decide
/-- V43-6 -/
theorem test_tokEmpty : after (exec (.tokEmpty .write) { holding .frameReady wtoken with wrq := [[], [0xAA]] })
    (fun t => (t.out, t.wrq)) = some (.claim .write [] :: bracket 1 [0x06], [[0xAA]]) := by decide
/-- V44-7: register 4 is ackRmu40. -/
theorem test_cfgWrite : after (exec (.cfgWrite .ackRmu40 0x01) State.reset) (·.cfg) =
    some { Config.cfgInit with ackRmu40 := true } := by decide
theorem test_cfgWrite_address : after (exec (.cfgWrite .ownAddress 0x42) State.reset) (·.cfg) =
    some { Config.cfgInit with ownAddress := 0x42 } := by decide
/-- R134 -/
theorem test_rdqPush : after (exec (.rdqPush [0xAA]) { State.reset with rdq := [[0x11]] }) (fun t => (t.rdq, t.wrq)) =
    some ([[0x11], [0xAA]], []) := by decide
/-- V44-8 -/
theorem test_wrqPush : after (exec (.wrqPush [0xAA]) State.reset) (fun t => (t.rdq, t.wrq)) =
    some ([], [[0xAA]]) := by decide
/-- V60-4 -/
theorem test_reset :
    after (exec .reset { holding .accum [0x5C] with rxq := [0x6B], out := [.flush], stopped := true })
      (fun t => (place t, t.stopped, t.cfg)) = some ((.waitStart, 0), false, Config.cfgInit) ∧
    after (exec .reset { holding .accum [0x5C] with rxq := [0x6B], out := [.flush], stopped := true })
      (fun t => (t.out, t.rxq)) = some ([], [0x6B]) := by decide
/-- V60-2 -/
theorem test_stop : after (exec .stop { holding .frameReady wtoken with wrq := [[0xAA]], out := [.outcome 1] })
    (fun t => (place t, t.stopped, t.out, t.wrq)) =
    some ((.waitStart, 0), true, [.outcome 1], [[0xAA]]) := by decide
/-- V42-4 -/
theorem test_addrSms40 : after (exec .addrSms40 { State.reset with
    cfg := { Config.cfgInit with sendAcknowledge := true, ackSms40 := true } }) (·.answer) =
    some (some (.admits true)) := by decide
/-- V42-3 -/
theorem test_addrRmu40 : after (exec .addrRmu40 { State.reset with
    cfg := { Config.cfgInit with sendAcknowledge := true, ackModbus40 := true } }) (·.answer) =
    some (some (.admits false)) := by decide
/-- V42-9 -/
theorem test_addrModbus40 : after (exec .addrModbus40 { State.reset with
    cfg := { Config.cfgInit with sendAcknowledge := true, ackModbus40 := true, ownAddress := 0x19 } }) (·.answer) =
    some (some (.admits true)) := by decide
/-- V42-6, V42-8 -/
theorem test_addrOther : after (exec (.addrOther 0x42) { State.reset with
      cfg := { Config.cfgInit with sendAcknowledge := true, ackAll := true } }) (·.answer) = some (some (.admits true)) ∧
    after (exec (.addrOther 0x42) { State.reset with cfg := gateway }) (·.answer) = some (some (.admits false)) := by
  decide

/-! Witnesses: for every statement with hypotheses, concrete values that meet them together. -/

theorem test_witness_DecodeEncodeAgree : Space.Fits (.rxAccum 128 5 6) (.accComplete 0x4B) ∧
    Space.Fits (.frame 0x20) (.frameData 0x00 0x20 0x6B [0x00] 0x4A) :=
  ⟨⟨128, 5, 6, rfl, by decide⟩, ⟨0x20, rfl, by decide⟩⟩
theorem test_witness_DecodedWordReencodes : decode .host [0x00, 0x05, 0x01] = .ok (.cfgWrite .forwardAll 0x01) := rfl
theorem test_witness_ReceivedByteSelectsOneOperation :
    (Space.rxWait = .rxWait ∨ ∃ maxFrame idx need, Space.rxWait = .rxAccum maxFrame idx need) ∧
    (Space.rxAccum 6 6 7 = .rxWait ∨ ∃ maxFrame idx need, Space.rxAccum 6 6 7 = .rxAccum maxFrame idx need) :=
  ⟨.inl rfl, .inr ⟨6, 6, 7, rfl⟩⟩
theorem test_witness_FrameHasOneClass : (List.replicate 255 (0x5C : Byte)).length ≤ 255 ∧ ([] : Datagram).length ≤ 255 := by
  decide +kernel

/-- The block's turn in a state of empty agenda, and as the agenda's oldest move. -/
theorem test_witness_BlockMoves : BlockMoves (hearing [0x5C]) (hearing [0x5C]) ∧
    BlockMoves { hearing [0x5C] with agenda := [.block, .consume] } { hearing [0x5C] with agenda := [.consume] } :=
  ⟨⟨by decide, rfl, .inl ⟨rfl, rfl⟩⟩, ⟨by decide, rfl, .inr ⟨rfl, rfl⟩⟩⟩
theorem blockMoves_self {s : State} (hl : s.params.Legal) (hp : s.probe = none) (ha : s.agenda = []) : BlockMoves s s :=
  ⟨hl, hp, .inl ⟨ha, rfl⟩⟩

theorem test_witness_StepRunsDecodedOperation_receive :
    BlockMoves (hearing [0x5C]) (hearing [0x5C]) ∧ (hearing [0x5C]).stopped = false ∧ (hearing [0x5C]).Receives ∧
      (hearing [0x5C]).rxq = 0x5C :: [] ∧ decode (hearing [0x5C]).rxSpace [0x5C] = .ok .syncStart :=
  ⟨blockMoves_self (by decide) rfl rfl, rfl, .inl rfl, rfl, rfl⟩
theorem test_witness_StepRunsDecodedOperation_dispatch :
    (BlockMoves (holding .frameReady wtoken) (holding .frameReady wtoken) ∧
      (holding .frameReady wtoken).stopped = false ∧ (holding .frameReady wtoken).dstate = .frameReady) ∧
    (BlockMoves (holding .chkFailed wtoken) (holding .chkFailed wtoken) ∧
      (holding .chkFailed wtoken).stopped = false ∧ (holding .chkFailed wtoken).dstate = .chkFailed) ∧
    (BlockMoves (holding .invalid wtoken) (holding .invalid wtoken) ∧
      (holding .invalid wtoken).stopped = false ∧ (holding .invalid wtoken).dstate = .invalid) :=
  ⟨⟨blockMoves_self (by decide) rfl rfl, rfl, rfl⟩, ⟨blockMoves_self (by decide) rfl rfl, rfl, rfl⟩,
    ⟨blockMoves_self (by decide) rfl rfl, rfl, rfl⟩⟩
theorem test_witness_StepRunsDecodedOperation_host :
    State.reset.params.Legal ∧ State.reset.probe = none ∧
      { State.reset with agenda := [.host [0x04]] }.agenda = .host [0x04] :: [] ∧ decode .host [0x04] = .ok .stop :=
  ⟨by decide, rfl, rfl, rfl⟩
theorem test_witness_StepRunsDecodedOperation_alone :
    State.reset.params.Legal ∧ { State.reset with probe := some (.resp, [0x06]) }.probe = some (.resp, [0x06]) ∧
      decode .resp [0x06] = .ok .ackSend :=
  ⟨by decide, rfl, rfl⟩
theorem test_witness_IdleTurnChangesNothing :
    (BlockMoves (hearing []) (hearing []) ∧ (hearing []).Quiescent) ∧
    (BlockMoves { hearing [0x5C] with stopped := true } { hearing [0x5C] with stopped := true } ∧
      { hearing [0x5C] with stopped := true }.Quiescent) :=
  ⟨⟨blockMoves_self (by decide) rfl rfl, .inr ⟨.inl rfl, rfl⟩⟩, ⟨blockMoves_self (by decide) rfl rfl, .inl rfl⟩⟩
theorem test_witness_EnvironmentMoves :
    State.reset.params.Legal ∧ State.reset.probe = none ∧
      { State.reset with agenda := [.busByte 0x5C] }.agenda = .busByte 0x5C :: [] ∧
      { State.reset with agenda := [.consume] }.agenda = .consume :: [] :=
  ⟨by decide, rfl, rfl, rfl⟩
theorem test_witness_SyncSkipChangesNothing : State.reset.stopped = false ∧ State.reset.dstate = .waitStart ∧
    (0x5B : Byte) ≠ 0x5C ∧ (0x5D : Byte) ≠ 0x5C := by decide
theorem test_witness_SyncStartBeginsFrame : (sized 6 State.reset).stopped = false ∧
    (sized 6 State.reset).dstate = .waitStart ∧ (sized 6 State.reset).buf.wf ∧ 0 < (sized 6 State.reset).params.maxFrame := by
  decide

/-- Receiving with `ws` in the buffer, MAX_FRAME `n`. -/
def filling (n : Nat) (ws : List Byte) : State := sized n (holding .accum ws)

theorem test_witness_OversizeRaisesInvalid : (filling 6 wtoken).stopped = false ∧ (filling 6 wtoken).dstate = .accum ∧
    (filling 6 wtoken).params.maxFrame ≤ (filling 6 wtoken).idx := by decide
/-- The first and the last position of ACC.SHORT. -/
theorem test_witness_ShortAppendsByte : ∀ ws ∈ [[0x5C], [0x5C, 0x00, 0x20, 0x6B]],
    (filling 6 ws).stopped = false ∧ (filling 6 ws).dstate = .accum ∧ (filling 6 ws).buf.wf ∧
      (filling 6 ws).idx < (filling 6 ws).params.maxFrame ∧ (filling 6 ws).idx + 1 < 6 := by decide
/-- The first and the last position of ACC.PARTIAL in a frame of length 2. -/
theorem test_witness_PartialAppendsByte : ∀ ws ∈ [[0x5C, 0x00, 0x20, 0x68, 0x02], [0x5C, 0x00, 0x20, 0x68, 0x02, 0x01]],
    (filling 8 ws).stopped = false ∧ (filling 8 ws).dstate = .accum ∧ (filling 8 ws).buf.wf ∧
      (filling 8 ws).idx < (filling 8 ws).params.maxFrame ∧ 6 ≤ (filling 8 ws).idx + 1 ∧
      (filling 8 ws).idx + 1 < zext ((filling 8 ws).buf.read 4) + 6 := by decide
/-- The last byte of a frame of length 0 in the smallest buffer: accepted with 0x4B, rejected with 0x4A. -/
theorem test_witness_CompleteJudgesFrame :
    ((filling 6 (wtoken.take 5)).stopped = false ∧ (filling 6 (wtoken.take 5)).dstate = .accum ∧
      (filling 6 (wtoken.take 5)).buf.wf ∧
      (filling 6 (wtoken.take 5)).idx < (filling 6 (wtoken.take 5)).params.maxFrame ∧
      6 ≤ (filling 6 (wtoken.take 5)).idx + 1 ∧
      zext ((filling 6 (wtoken.take 5)).buf.read 4) + 6 ≤ (filling 6 (wtoken.take 5)).idx + 1) ∧
    (after (exec (.accComplete 0x4B) (filling 6 (wtoken.take 5))) (fun t => decide t.buf.Accepts) = some true) ∧
    (after (exec (.accComplete 0x4A) (filling 6 (wtoken.take 5))) (fun t => decide t.buf.Accepts) = some false) := by
  decide

theorem filling_inv : (filling 6 (wtoken.take 5)).FrameInv := by constructor <;> decide
theorem filling_ok : (filling 6 (wtoken.take 5)).BufferOk := by decide

theorem test_witness_FrameEndsAtItsLength : (filling 6 (wtoken.take 5)).BufferOk ∧
    (filling 6 (wtoken.take 5)).FrameInv ∧
    exec (.accComplete 0x4B) (filling 6 (wtoken.take 5)) =
      .next ((filling 6 (wtoken.take 5)).append 0x4B).judged := ⟨filling_ok, filling_inv, rfl⟩
theorem test_witness_NoReceptionWhenTerminal : { State.reset with stopped := true }.stopped = true ∧
    ¬(holding .frameReady wtoken).Receives ∧ ¬(holding .chkFailed wtoken).Receives ∧
    ¬(holding .invalid wtoken).Receives := by decide
/-- The whole of the smallest buffer, and a frame with payload. -/
theorem test_witness_ComputeAnswersXor : ∀ ws ∈ [wtoken, [0x5C, 0x00, 0x20, 0x68, 0x02, 0x01, 0x02, 0x49]],
    (sized ws.length (holding .frameReady ws)).idx =
      zext ((sized ws.length (holding .frameReady ws)).buf.read 4) + 6 ∧
    (sized ws.length (holding .frameReady ws)).idx ≤ (sized ws.length (holding .frameReady ws)).params.maxFrame := by decide
theorem test_witness_VerdictsOfCheck :
    ((0x5C : Byte) ≠ 0xC4 ∧ ¬((0x5C : Byte) = 0x5C ∧ (0xC4 : Byte) = 0xC5)) ∧
    ((0xC5 : Byte) ≠ 0x5C ∧ ¬((0xC5 : Byte) = 0x5C ∧ (0x5C : Byte) = 0xC5)) := by decide
/-- The first and the last byte, the lowest and the highest bit. -/
theorem test_witness_SingleBitFlipIsRejected : ∀ j ∈ [1, 5], ∀ n ∈ [0, 7],
    (Mem.load [] 0 wtoken).wf ∧ (Mem.load [] 0 wtoken).chkAccept = true ∧ 1 ≤ j ∧
      j ≤ zext ((Mem.load [] 0 wtoken).read 4) + 5 ∧ j ≠ 4 ∧ n < 8 := by decide
theorem test_witness_AddressEntriesAnswerFilter : ∀ a ∈ [(0x15 : Byte), 0x17, 0x18, 0x1A, 0x1F, 0x21],
    a ≠ 0x16 ∧ a ≠ 0x19 ∧ a ≠ 0x20 := by decide

theorem not_presents {s : State} (h : s.tokenKind = none) : ¬∃ k, s.Presents k := by
  rintro ⟨k, h1, h2, h3, h4⟩
  rcases h4 with ⟨_, h4⟩ | ⟨_, h4⟩ <;>
    simp [State.tokenKind, State.addr, State.cmd, kindOfCommand, h1, h2, h3, h4] at h

theorem presents_write (s : State) (h : s.buf = Mem.load [] 0 wtoken) (hd : s.dstate = .frameReady)
    (ho : s.cfg.ownAddress = 0x20) : s.Presents .write :=
  ⟨hd, by rw [h, ho]; decide, by rw [h]; decide, .inr ⟨rfl, by rw [h]; decide⟩⟩
theorem presents_read (s : State) (h : s.buf = Mem.load [] 0 rtoken) (hd : s.dstate = .frameReady)
    (ho : s.cfg.ownAddress = 0x20) : s.Presents .read :=
  ⟨hd, by rw [h, ho]; decide, by rw [h]; decide, .inl ⟨rfl, by rw [h]; decide⟩⟩

theorem test_witness_DecisionTable :
    4 < (sized 6 (holding .chkFailed rmuFrame)).params.maxFrame ∧ (sized 6 (holding .chkFailed rmuFrame)).dstate = .chkFailed ∧
    (sized 6 (holding .frameReady rmuFrame)).dstate = .frameReady ∧
    (¬∃ k, (sized 6 (holding .frameReady rmuFrame)).Presents k) ∧
    (∃ k, (sized 6 (holding .frameReady wtoken)).Presents k) ∧
    (sized 6 (holding .invalid rmuFrame)).dstate = .invalid :=
  ⟨by decide, rfl, rfl, not_presents (by decide), ⟨.write, presents_write _ rfl rfl rfl⟩, rfl⟩
theorem test_witness_TransmitBracket : State.reset.de = false ∧ ([0x06] : Datagram) ≠ [] := by decide
theorem test_witness_TransmitNeedsBytesAndReceive :
    ({ State.reset with de := true }.de = true ∨ ([0x06] : Datagram) = []) ∧ (State.reset.de = true ∨ ([] : Datagram) = []) := by
  decide
/-- A token for the gateway, one for another device, and one whose checksum failed. -/
theorem test_witness_TokenRecognized :
    5 < (sized 6 (holding .frameReady wtoken)).params.maxFrame ∧
    (sized 6 (holding .frameReady wtoken)).frameBytes = encode (.tokMatch 0x00 0x20 .write 0x4B) ∧
    (sized 6 (holding .frameReady [0x5C, 0x00, 0x19, 0x69, 0x00, 0x70])).frameBytes =
      encode (.tokMatch 0x00 0x19 .read 0x70) ∧
    (sized 6 (holding .chkFailed wtoken)).frameBytes = encode (.tokMatch 0x00 0x20 .write 0x4B) := by decide

/-- A write-token with `q` queued for it. -/
def granted (q : List Datagram) : State := { sized 6 (holding .frameReady wtoken) with wrq := q }
/-- A read-token with `q` queued for it. -/
def grantedRead (q : List Datagram) : State := { sized 6 (holding .frameReady rtoken) with rdq := q }

theorem test_witness_RelaySendsClaimedDatagram :
    ((granted [[0xAA], [0xBB]]).stopped = false ∧ (granted [[0xAA], [0xBB]]).Presents .write ∧
      (granted [[0xAA], [0xBB]]).de = false ∧ 5 < (granted [[0xAA], [0xBB]]).params.maxFrame ∧
      (granted [[0xAA], [0xBB]]).queue .write = [0xAA] :: [[0xBB]] ∧ ([0xAA] : Datagram) ≠ []) ∧
    (grantedRead [[0xAA]]).Presents .read ∧ (grantedRead [[0xAA]]).queue .read = [0xAA] :: [] :=
  ⟨⟨rfl, presents_write _ rfl rfl rfl, rfl, by decide, rfl, by decide⟩, presents_read _ rfl rfl rfl, rfl⟩
/-- With the filter open and with it closed. -/
theorem test_witness_FallbackAcknowledges :
    (granted []).stopped = false ∧ (granted []).Presents .write ∧ (granted []).de = false ∧
    5 < (granted []).params.maxFrame ∧ (granted []).queue .write = [] ∧
    shouldAck (granted []).cfg ((granted []).buf.read 2) = true ∧
    { granted [] with cfg := { gateway with ackModbus40 := false } }.Presents .write ∧
    shouldAck { gateway with ackModbus40 := false } ((granted []).buf.read 2) = false :=
  ⟨rfl, presents_write _ rfl rfl rfl, rfl, by decide, rfl, by decide, presents_write _ rfl rfl rfl, by decide⟩
theorem test_witness_EmptyDatagramFallsBack :
    (granted [[], [0xAA]]).stopped = false ∧ (granted [[], [0xAA]]).Presents .write ∧ (granted [[], [0xAA]]).de = false ∧
    5 < (granted [[], [0xAA]]).params.maxFrame ∧ (granted [[], [0xAA]]).queue .write = [] :: [[0xAA]] :=
  ⟨rfl, presents_write _ rfl rfl rfl, rfl, by decide, rfl⟩
theorem test_witness_TokenIsAnswered : (grantedRead []).stopped = false ∧ (grantedRead []).Presents .read ∧
    (grantedRead []).de = false ∧ 5 < (grantedRead []).params.maxFrame :=
  ⟨rfl, presents_read _ rfl rfl rfl, rfl, by decide⟩
theorem test_witness_TokenIsAnswered_datagram : (grantedRead [[0xAA]]).stopped = false ∧
    (grantedRead [[0xAA]]).Presents .read ∧ (grantedRead [[0xAA]]).de = false ∧
    5 < (grantedRead [[0xAA]]).params.maxFrame ∧ (grantedRead [[0xAA]]).queue .read = [[0xAA]] :=
  ⟨rfl, presents_read _ rfl rfl rfl, rfl, by decide, rfl⟩
theorem test_witness_TokenIsAnswered_empty_datagram : (granted [[], [0xAA]]).stopped = false ∧
    (granted [[], [0xAA]]).Presents .write ∧ (granted [[], [0xAA]]).de = false ∧
    5 < (granted [[], [0xAA]]).params.maxFrame ∧ (granted [[], [0xAA]]).queue .write = [[], [0xAA]] :=
  ⟨rfl, presents_write _ rfl rfl rfl, rfl, by decide, rfl⟩
/-- In a buffer of exactly the frame's size, under both formats, in and out of the forwarding scope. -/
theorem test_witness_DataFrameIsHandedOn :
    (sized 6 (holding .frameReady rmuFrame)).stopped = false ∧ (sized 6 (holding .frameReady rmuFrame)).dstate = .frameReady ∧
    (¬∃ k, (sized 6 (holding .frameReady rmuFrame)).Presents k) ∧ (sized 6 (holding .frameReady rmuFrame)).de = false ∧
    zext ((sized 6 (holding .frameReady rmuFrame)).buf.read 4) + 6 ≤
      (sized 6 (holding .frameReady rmuFrame)).params.maxFrame ∧
    (sized 6 (holding .frameReady rmuFrame)).params.fwdFormat = .full ∧
    (¬∃ k, { sized 6 (holding .frameReady rmuFrame) with params := { Config.defaults with fwdFormat := .noChecksum } }.Presents k) :=
  ⟨rfl, rfl, not_presents (by decide), rfl, by decide, rfl, not_presents (by decide)⟩
theorem test_witness_ChecksumFailureIsAnswered :
    (sized 6 (holding .chkFailed wtoken)).stopped = false ∧ (sized 6 (holding .chkFailed wtoken)).dstate = .chkFailed ∧
    (sized 6 (holding .chkFailed wtoken)).de = false ∧ 2 < (sized 6 (holding .chkFailed wtoken)).params.maxFrame ∧
    shouldAck (sized 6 (holding .chkFailed wtoken)).cfg ((sized 6 (holding .chkFailed wtoken)).buf.read 2) = true ∧
    shouldAck Config.cfgInit ((sized 6 (holding .chkFailed wtoken)).buf.read 2) = false := by decide
theorem test_witness_InvalidIsDropped : { State.reset with dstate := .invalid, idx := 128 }.stopped = false ∧
    { State.reset with dstate := .invalid, idx := 128 }.dstate = .invalid := by decide
theorem test_witness_FrameClassesAreDispatched :
    (granted []).stopped = false ∧ (granted []).dstate = .frameReady ∧ (granted []).de = false ∧
    5 < (granted []).params.maxFrame ∧ (0x20 : Byte) = (granted []).cfg.ownAddress ∧
    (granted []).frameBytes = encode (.frameWtoken 0x00 0x20 0x4B) ∧
    (grantedRead []).frameBytes = encode (.frameRtoken 0x00 0x20 0x49) ∧
    Space.Fits (.frame (sized 6 (holding .frameReady rmuFrame)).cfg.ownAddress) (.frameData 0x00 0x19 0x60 [] 0x79) ∧
    (sized 6 (holding .frameReady rmuFrame)).idx ≤ (sized 6 (holding .frameReady rmuFrame)).params.maxFrame ∧
    (sized 6 (holding .frameReady rmuFrame)).frameBytes = encode (.frameData 0x00 0x19 0x60 [] 0x79) :=
  ⟨rfl, rfl, rfl, by decide, rfl, by decide, by decide, ⟨0x20, rfl, by decide⟩, by decide, by decide⟩
theorem test_witness_ConfigurationWrite :
    (CfgField.ownAddress = .ownAddress ∨ (0xFF : Byte) = 0 ∨ (0xFF : Byte) = 1) ∧
    (CfgField.ackAll = .ownAddress ∨ (1 : Byte) = 0 ∨ (1 : Byte) = 1) ∧
    (CfgField.ackAll = .ownAddress ∨ (0 : Byte) = 0 ∨ (0 : Byte) = 1) ∧
    (CfgField.ackAll ≠ .ownAddress ∧ (2 : Byte) ≠ 0 ∧ (2 : Byte) ≠ 1) := by decide
theorem test_witness_StoppedUntilReset :
    (BlockMoves { hearing [0x5C] with stopped := true } { hearing [0x5C] with stopped := true } ∧
      { hearing [0x5C] with stopped := true }.stopped = true) ∧
    exec (.rdqPush [0xAA]) { State.reset with stopped := true } =
      .next { State.reset with stopped := true, rdq := [[0xAA]] } ∧
    exec (.syncSkip 0x00) State.reset = .next State.reset ∧
    exec .stop State.reset = .next { State.reset with stopped := true } ∧
    exec .reset { State.reset with stopped := true } = .next State.reset :=
  ⟨⟨blockMoves_self (by decide) rfl rfl, rfl⟩, rfl, rfl, rfl, rfl⟩

/-- The last byte of a token on its way, in the smallest buffer. -/
def lastByte : State := { filling 6 (wtoken.take 5) with rxq := [0x4B] }
/-- The step that takes it. -/
theorem lastByte_step : step lastByte = .next ({ lastByte with rxq := [] }.append 0x4B).judged := by rfl
theorem lastByte_inv : lastByte.FrameInv := by constructor <;> decide

theorem test_witness_FrameInvariantKept : lastByte.BufferOk ∧ lastByte.FrameInv ∧
    step lastByte = .next ({ lastByte with rxq := [] }.append 0x4B).judged := ⟨by decide, lastByte_inv, lastByte_step⟩
theorem test_witness_BufferFormKept : lastByte.BufferOk ∧
    step lastByte = .next ({ lastByte with rxq := [] }.append 0x4B).judged := ⟨by decide, lastByte_step⟩
theorem test_witness_TraceGrammarKept : lastByte.probe = none ∧ lastByte.TraceOk ∧
    step lastByte = .next ({ lastByte with rxq := [] }.append 0x4B).judged :=
  ⟨rfl, by show Trace 1 none []; exact .start, lastByte_step⟩
/-- A write-token that waits for its DISPATCH with a datagram queued, its outcome in the trace. -/
def answering : State := { granted [[0xAA]] with out := [.outcome 1] }
theorem test_witness_TransmissionsAreGranted : answering.probe = none ∧ answering.TraceOk ∧
    after (step answering) (fun t => transmissions t.out) = some [[0xAA]] :=
  ⟨rfl, by show Trace 1 (some 1) ([] ++ [.outcome 1]); exact .outcome 1 .start (.inl rfl), by decide⟩
theorem test_witness_ConfigurationIsTheHosts : exec .chkQuirk State.reset =
    .next { State.reset with answer := some (.verdict true) } ∧ Instr.chkQuirk ≠ .reset ∧
    ∀ f v, Instr.chkQuirk ≠ .cfgWrite f v := ⟨rfl, by decide, fun _ _ => nofun⟩
/-- A push, and a claim. -/
theorem test_witness_QueuesMoveByTokenOrPush :
    exec (.rdqPush [0xAA]) State.reset = .next { State.reset with rdq := [[0xAA]] } ∧
    exec (.tokRelay .write [0xAA]) (granted [[0xAA]]) =
      .next (((granted [[0xAA]]).claimed .write [0xAA] []).sent [0xAA]) := ⟨rfl, by rfl⟩
/-- Each of the writing operations, and one that writes nothing. -/
theorem test_witness_BufferWrittenByReceptionOnly :
    (State.reset.buf.wf ∧ exec .syncStart State.reset =
      .next { State.reset with buf := [(0, 0x5C)], idx := 1, dstate := .accum }) ∧
    ((filling 6 [0x5C]).buf.wf ∧ exec (.accShort 0x00) (filling 6 [0x5C]) = .next ((filling 6 [0x5C]).append 0x00)) ∧
    ((filling 8 [0x5C, 0x00, 0x20, 0x68, 0x02]).buf.wf ∧
      exec (.accPartial 0x01) (filling 8 [0x5C, 0x00, 0x20, 0x68, 0x02]) =
        .next ((filling 8 [0x5C, 0x00, 0x20, 0x68, 0x02]).append 0x01)) ∧
    (lastByte.buf.wf ∧ exec (.accComplete 0x4B) lastByte = .next (lastByte.append 0x4B).judged) ∧
    exec (.rdqPush [0xAA]) State.reset = .next { State.reset with rdq := [[0xAA]] } :=
  ⟨⟨by decide, by rfl⟩, ⟨by decide, by rfl⟩, ⟨by decide, by rfl⟩, ⟨by decide, by rfl⟩, rfl⟩
/-- The bus appends, the block takes. -/
theorem test_witness_ReceiveStreamInOrder : step lastByte = .next ({ lastByte with rxq := [] }.append 0x4B).judged ∧
    step { State.reset with agenda := [.busByte 0x5C] } = .next { State.reset with rxq := [0x5C] } :=
  ⟨lastByte_step, rfl⟩
theorem test_witness_AtMostOneTransmission : Instr.ackSend ≠ .reset ∧
    exec .ackSend State.reset = .next (State.reset.sent [0x06]) ∧ State.reset.de = false := ⟨by decide, rfl, rfl⟩
theorem test_witness_NoiseIsSkipped :
    (hearing [0x06, 0x15, 0x5C]).params.Legal ∧ (hearing [0x06, 0x15, 0x5C]).probe = none ∧
    (hearing [0x06, 0x15, 0x5C]).agenda = [] ∧ (hearing [0x06, 0x15, 0x5C]).stopped = false ∧
    (hearing [0x06, 0x15, 0x5C]).dstate = .waitStart ∧ 2 ≤ (hearing [0x06, 0x15, 0x5C]).rxq.length ∧
    ∀ b ∈ (hearing [0x06, 0x15, 0x5C]).rxq.take 2, b ≠ 0x5C := by decide
/-- V40-15: the longest frame, on its way into a buffer of its size. -/
def longest : State := sized 261 (hearing (0x5C :: 0x00 :: 0x20 :: 0x68 :: 0xFF :: (List.replicate 255 0x00 ++ [0xB7])))
/-- V41-8: a frame that will be rejected, on its way into the smallest buffer, with a byte behind it. -/
def rejected : State := sized 6 (hearing [0x5C, 0x00, 0x20, 0x7C, 0x00, 0x00, 0x5C])
theorem test_witness_FrameIsReceivedWhole :
    (longest.params.Legal ∧ longest.probe = none ∧ longest.agenda = [] ∧ longest.stopped = false ∧
      longest.dstate = .waitStart ∧ longest.buf.wf ∧ (List.replicate 255 (0x00 : Byte)).length ≤ 255 ∧
      (List.replicate 255 (0x00 : Byte)).length + 6 ≤ longest.params.maxFrame ∧
      longest.rxq = encode (.frameData 0x00 0x20 0x68 (List.replicate 255 0x00) 0xB7) ++ [] ∧
      (Instr.frameData 0x00 0x20 0x68 (List.replicate 255 0x00) 0xB7).WellFormed = true) ∧
    (rejected.params.Legal ∧ rejected.probe = none ∧ rejected.agenda = [] ∧ rejected.stopped = false ∧
      rejected.dstate = .waitStart ∧ rejected.buf.wf ∧ ([] : Datagram).length ≤ 255 ∧
      ([] : Datagram).length + 6 ≤ rejected.params.maxFrame ∧
      rejected.rxq = encode (.frameData 0x00 0x20 0x7C [] 0x00) ++ [0x5C] ∧
      (Instr.frameData 0x00 0x20 0x7C [] 0x00).WellFormed = false) := by decide +kernel

/-- P6: a frame that declares 9 bytes for a buffer of 8. -/
def tooLong : State := sized 8 (hearing [0x5C, 0x00, 0x20, 0x68, 0x03, 0x01, 0x02, 0x03, 0x5C, 0x00])
theorem test_witness_OversizeIsSwallowed : tooLong.params.Legal ∧ tooLong.probe = none ∧ tooLong.agenda = [] ∧
    tooLong.stopped = false ∧ tooLong.dstate = .waitStart ∧ tooLong.buf.wf ∧ tooLong.params.maxFrame < zext 0x03 + 6 ∧
    ([0x01, 0x02, 0x03, 0x5C] : List Byte).length + 4 = tooLong.params.maxFrame ∧
    tooLong.rxq = 0x5C :: 0x00 :: 0x20 :: 0x68 :: 0x03 :: [0x01, 0x02, 0x03, 0x5C] ++ [0x00] := by decide

/-- P2: a write-token on its way, with datagrams queued. -/
def beforeToken : State := { sized 6 (hearing wtoken) with wrq := [[0xAA, 0xBB, 0xCC], [0xDD]], rdq := [[0x11]] }
theorem test_witness_TokenRelaysQueuedDatagram : beforeToken.params.Legal ∧ beforeToken.probe = none ∧
    beforeToken.agenda = [] ∧ beforeToken.stopped = false ∧ beforeToken.dstate = .waitStart ∧ beforeToken.de = false ∧
    beforeToken.buf.wf ∧ (Instr.tokMatch 0x00 beforeToken.cfg.ownAddress .write 0x4B).WellFormed = true ∧
    beforeToken.rxq = encode (.tokMatch 0x00 beforeToken.cfg.ownAddress .write 0x4B) ++ [] ∧
    beforeToken.queue .write = [0xAA, 0xBB, 0xCC] :: [[0xDD]] ∧ ([0xAA, 0xBB, 0xCC] : Datagram) ≠ [] := by decide
/-- The same for a read-token. -/
def beforeReadToken : State := { sized 6 (hearing rtoken) with wrq := [[0xAA]], rdq := [[0x11], [0x22]] }
theorem test_witness_TokenRelaysQueuedDatagram_read : beforeReadToken.params.Legal ∧ beforeReadToken.probe = none ∧
    beforeReadToken.agenda = [] ∧ beforeReadToken.stopped = false ∧ beforeReadToken.dstate = .waitStart ∧
    beforeReadToken.de = false ∧ beforeReadToken.buf.wf ∧
    (Instr.tokMatch 0x00 beforeReadToken.cfg.ownAddress .read 0x49).WellFormed = true ∧
    beforeReadToken.rxq = encode (.tokMatch 0x00 beforeReadToken.cfg.ownAddress .read 0x49) ++ [] ∧
    beforeReadToken.queue .read = [0x11] :: [[0x22]] ∧ ([0x11] : Datagram) ≠ [] := by decide
/-- Two buffers that differ at index 5, which the frame in progress has not reached. -/
theorem test_witness_StaleBytesNeverMatter : lastByte.probe = none ∧ lastByte.buf.wf ∧
    (lastByte.buf.write 5 0xFF).wf ∧ lastByte.FrameInv ∧
    SameFrame lastByte { lastByte with buf := lastByte.buf.write 5 0xFF } ∧
    { lastByte with buf := lastByte.buf.write 5 0xFF } ≠ lastByte ∧
    step lastByte = .next ({ lastByte with rxq := [] }.append 0x4B).judged :=
  ⟨rfl, by decide, by decide, lastByte_inv, by decide, by decide, lastByte_step⟩
theorem test_witness_LargeMaxFrameIsIrrelevant : (sized 261 (hearing [0x5C])).probe = none ∧
    (sized 261 (hearing [0x5C])).FrameInv ∧ 261 ≤ (sized 261 (hearing [0x5C])).params.maxFrame ∧ 261 ≤ 300 ∧
    step (sized 261 (hearing [0x5C])) =
      .next { sized 261 (hearing []) with buf := [(0, 0x5C)], idx := 1, dstate := .accum } :=
  ⟨rfl, by constructor <;> decide, by decide, by decide, by rfl⟩
theorem test_witness_BlockNeverStopsItself : (granted []).FrameInv ∧ BlockMoves (granted []) (granted []) ∧
    (granted []).stopped = false ∧ ¬(granted []).Receives :=
  ⟨by constructor <;> decide, blockMoves_self (by decide) rfl rfl, rfl, by decide⟩

end Sys2Proof.Tests
end

section
/-! Byte synchronisation and frame accumulation: SYNC.SKIP, SYNC.START, ACC.SHORT (spec/40 R71, R72, R74). -/

namespace Sys2Proof.Machine

/-- While a frame is awaited or in progress the outcome is Incomplete (R14, R145). -/
theorem State.outcome_of_receives {s : State} (h : s.Receives) : s.outcome = 0 := by
  obtain hd | hd := h
  · rw [State.outcome, hd]; rfl
  · rw [State.outcome, hd]; rfl

/-- Appending a byte inside a frame: its effect and its frame, shared by the operations that only append
(R74, R75). -/
theorem State.append_spec {s : State} (hd : s.dstate = .accum) (hw : s.buf.wf) (b : Byte) :
    s.append b = { s with buf := (s.append b).buf, idx := s.idx + 1 } ∧
      (∀ a, (s.append b).buf.read a = if a = s.idx then b else s.buf.read a) ∧ (s.append b).outcome = 0 :=
  ⟨rfl, Mem.read_write hw s.idx b, State.outcome_of_receives (.inr hd)⟩

/-- Settles O9: the operation's condition is the statement's, and it answers the state it is given. -/
theorem syncSkipChangesNothing : Obligations.SyncSkipChangesNothing := by
  intro s b hs hd hb
  have hrun : exec (.syncSkip b) s = .next s := exec_syncSkip_eq_next.2 ⟨⟨⟨hs, hd⟩, hb⟩, rfl⟩
  exact ⟨hrun, State.outcome_of_receives (.inl hd)⟩

/-- Settles O10: one write to the canonical buffer at index 0, which changes no other index. -/
theorem syncStartBeginsFrame : Obligations.SyncStartBeginsFrame := by
  intro s hs hd hw hmax
  have hread : ∀ a, (s.buf.write 0 0x5C).read a = if a = 0 then 0x5C else s.buf.read a := Mem.read_write hw 0 0x5C
  exact ⟨_, exec_syncStart_eq_next.2 ⟨⟨hs, hd⟩, hmax, rfl⟩, rfl, hread, State.outcome_of_receives (.inr rfl)⟩

/-- Settles O12: where the condition of R74 holds the operation appends the byte, and `State.append_spec` says what
that changes. -/
theorem shortAppendsByte : Obligations.ShortAppendsByte := by
  intro s b hs hd hw hmax hshort
  have hrun : exec (.accShort b) s = .next (s.append b) :=
    exec_accShort_eq_next.2 ⟨⟨⟨hs, hd⟩, hmax, hshort⟩, rfl⟩
  exact ⟨s.append b, hrun, State.append_spec hd hw b⟩

end Sys2Proof.Machine
end

section
/-! The host's queue operations RDQ.PUSH and WRQ.PUSH (R134). -/

namespace Sys2Proof.Machine

/-- Settles O36: the law of each PUSH names its only next state, which is the statement's. -/
theorem queuePushAppends : Obligations.QueuePushAppends := by
  intro s d
  have hread : exec (.rdqPush d) s = .next { s with rdq := s.rdq ++ [d] } := exec_rdqPush_eq_next.2 rfl
  have hwrite : exec (.wrqPush d) s = .next { s with wrq := s.wrq ++ [d] } := exec_wrqPush_eq_next.2 rfl
  exact ⟨hread, hwrite⟩

end Sys2Proof.Machine
end

section
/-! The words of the spaces: what each part of the decoder reads from a word, that decoding and encoding undo each
other, and what follows from that for the words of a received byte and of a frame (spec/30 R51 to R61, spec/40 R70). -/

namespace Sys2Proof.Machine

/-- A list of `n + 1` bytes is its first `n` bytes and its last. -/
theorem take_append_getLastD {l : List Byte} {n : Nat} (h : l.length = n + 1) (d : Byte) :
    l.take n ++ [l.getLastD d] = l := by
  have hne : l ≠ [] := by rintro rfl; simp at h
  have hlast : l.getLastD d = l.getLast hne := by simp [List.getLastD_eq_getLast?, List.getLast?_eq_some_getLast hne]
  have hinit : l.take n = l.dropLast := by rw [List.dropLast_eq_take, h]; rfl
  rw [hlast, hinit, List.dropLast_append_getLast]

/-- The length byte of a payload of at most 255 bytes is its length (R56). -/
theorem zext_ofNat_length {p : Datagram} (h : p.length ≤ 255) : zext (BitVec.ofNat 8 p.length) = p.length := by
  rw [zext, BitVec.toNat_ofNat]; omega

/-- The frame cutter reads exactly the words of frames with at most 255 payload bytes (R51, R56). -/
theorem splitFrame_eq_ok {ws : List Byte} {h a c k : Byte} {p : Datagram} :
    splitFrame ws = .ok (h, a, c, p, k) ↔ p.length ≤ 255 ∧ ws = encode (.frameData h a c p k) := by
  constructor
  · intro heq
    unfold splitFrame at heq
    split at heq
    · next s h' a' c' n rest =>
      split at heq
      · cases heq
      · next hs =>
        split at heq
        · cases heq
        · next hlen =>
          rw [ne_eq, not_not] at hs hlen
          cases heq
          have htake : (rest.take (zext n)).length = zext n := by rw [List.length_take]; omega
          have hn : BitVec.ofNat 8 (zext n) = n := BitVec.eq_of_toNat_eq (by simp)
          refine ⟨by rw [htake]; exact Nat.le_of_lt_succ n.isLt, ?_⟩
          rw [encode, htake, hn, take_append_getLastD hlen, hs]
    · split at heq <;> cases heq
    · cases heq
  · rintro ⟨hp, rfl⟩
    simp only [encode, splitFrame, zext_ofNat_length hp]
    simp

/-- The word of a token frame is that of a data frame with no payload (R59). -/
theorem encode_tokMatch (h a k : Byte) (kind : TokenKind) :
    encode (.tokMatch h a kind k) = encode (.frameData h a kind.command [] k) := rfl

theorem decode_frame_eq_ok {own : Byte} {ws : List Byte} {i : Instr} :
    decode (.frame own) ws = .ok i ↔
      ∃ h a c p k, p.length ≤ 255 ∧ ws = encode (.frameData h a c p k) ∧ i = classify own h a c p k := by
  simp only [decode]
  constructor
  · intro heq
    split at heq
    · next h a c p k hsplit =>
      cases heq
      obtain ⟨hp, hws⟩ := splitFrame_eq_ok.1 hsplit
      exact ⟨h, a, c, p, k, hp, hws, rfl⟩
    · cases heq
  · rintro ⟨h, a, c, p, k, hp, hws, rfl⟩
    rw [splitFrame_eq_ok.2 ⟨hp, hws⟩]

theorem decode_recognizer_eq_ok {ws : List Byte} {i : Instr} :
    decode .recognizer ws = .ok i ↔
      ∃ h a c p k, p.length ≤ 255 ∧ ws = encode (.frameData h a c p k) ∧ recognize h a c p k = .ok i := by
  simp only [decode]
  constructor
  · intro heq
    split at heq
    · next h a c p k hsplit =>
      obtain ⟨hp, hws⟩ := splitFrame_eq_ok.1 hsplit
      exact ⟨h, a, c, p, k, hp, hws, heq⟩
    · cases heq
  · rintro ⟨h, a, c, p, k, hp, hws, heq⟩
    rw [splitFrame_eq_ok.2 ⟨hp, hws⟩]
    exact heq

/-- The three classes of a frame with their conditions (R59). -/
theorem classify_cases (own h a c k : Byte) (p : Datagram) :
    (a = own ∧ p = [] ∧ c = 0x69 ∧ classify own h a c p k = .frameRtoken h a k) ∨
    (a = own ∧ p = [] ∧ c = 0x6B ∧ classify own h a c p k = .frameWtoken h a k) ∨
    (¬(a = own ∧ p.length = 0 ∧ (c = 0x69 ∨ c = 0x6B)) ∧ classify own h a c p k = .frameData h a c p k) := by
  unfold classify
  split
  · next hr => exact .inl ⟨hr.1, hr.2.1, hr.2.2, rfl⟩
  · next hr =>
    split
    · next hw => exact .inr (.inl ⟨hw.1, hw.2.1, hw.2.2, rfl⟩)
    · next hw =>
      refine .inr (.inr ⟨?_, rfl⟩)
      rintro ⟨ha, hp, hc | hc⟩
      · exact hr ⟨ha, List.length_eq_zero_iff.1 hp, hc⟩
      · exact hw ⟨ha, List.length_eq_zero_iff.1 hp, hc⟩

theorem recognize_eq_ok {h a c k : Byte} {p : Datagram} {i : Instr} :
    recognize h a c p k = .ok i ↔ ∃ kind : TokenKind, p = [] ∧ c = kind.command ∧ i = .tokMatch h a kind k := by
  unfold recognize
  constructor
  · intro heq
    split at heq
    · next hr => cases heq; exact ⟨.read, hr.1, hr.2, rfl⟩
    · split at heq
      · next hw => cases heq; exact ⟨.write, hw.1, hw.2, rfl⟩
      · cases heq
  · rintro ⟨kind, rfl, rfl, rfl⟩
    cases kind <;> rfl

/-- The four operations of ACCUM with their conditions (R70). -/
theorem decodeAccum_cases (maxFrame idx need : Nat) (b : Byte) :
    (maxFrame ≤ idx ∧ decodeAccum maxFrame idx need b = .accOversize b) ∨
    (idx < maxFrame ∧ idx + 1 < 6 ∧ decodeAccum maxFrame idx need b = .accShort b) ∨
    (idx < maxFrame ∧ 6 ≤ idx + 1 ∧ idx + 1 < need ∧ decodeAccum maxFrame idx need b = .accPartial b) ∨
    (idx < maxFrame ∧ 6 ≤ idx + 1 ∧ need ≤ idx + 1 ∧ decodeAccum maxFrame idx need b = .accComplete b) := by
  unfold decodeAccum Config.overhead
  split
  · next h => exact .inl ⟨h, rfl⟩
  · next h1 =>
    split
    · next h => exact .inr (.inl ⟨by omega, h, rfl⟩)
    · next h2 =>
      split
      · next h => exact .inr (.inr (.inl ⟨by omega, by omega, h, rfl⟩))
      · next h3 => exact .inr (.inr (.inr ⟨by omega, by omega, by omega, rfl⟩))

theorem decodeAccum_of_full {maxFrame idx need : Nat} (h : maxFrame ≤ idx) (b : Byte) :
    decodeAccum maxFrame idx need b = .accOversize b := if_pos h

theorem decodeAccum_of_short {maxFrame idx need : Nat} (h : idx < maxFrame) (h6 : idx + 1 < 6) (b : Byte) :
    decodeAccum maxFrame idx need b = .accShort b := by
  rw [decodeAccum, if_neg (by omega), if_pos h6]

theorem decodeAccum_of_partial {maxFrame idx need : Nat} (h : idx < maxFrame) (h6 : 6 ≤ idx + 1)
    (hn : idx + 1 < need) (b : Byte) : decodeAccum maxFrame idx need b = .accPartial b := by
  rw [decodeAccum, if_neg (by omega), if_neg (by simp only [Config.overhead]; omega), if_pos hn]

theorem decodeAccum_of_complete {maxFrame idx need : Nat} (h : idx < maxFrame) (h6 : 6 ≤ idx + 1)
    (hn : need ≤ idx + 1) (b : Byte) : decodeAccum maxFrame idx need b = .accComplete b := by
  rw [decodeAccum, if_neg (by omega), if_neg (by simp only [Config.overhead]; omega), if_neg (by omega)]

/-- What the decoder of ACCUM selects belongs to ACCUM, and its word is the byte. -/
theorem decodeAccum_fits (maxFrame idx need : Nat) (b : Byte) :
    encode (decodeAccum maxFrame idx need b) = [b] ∧
      Space.Fits (.rxAccum maxFrame idx need) (decodeAccum maxFrame idx need b) := by
  obtain ⟨h, heq⟩ | ⟨h, h6, heq⟩ | ⟨h, h6, hn, heq⟩ | ⟨h, h6, hn, heq⟩ := decodeAccum_cases maxFrame idx need b
  all_goals rw [heq]; refine ⟨rfl, maxFrame, idx, need, rfl, ?_⟩
  · exact h
  · exact ⟨h, h6⟩
  · exact ⟨h, h6, hn⟩
  · exact ⟨h, h6, hn⟩

theorem decodeCheck_fits (c k : Byte) : encode (decodeCheck c k) = [c, k] ∧ Space.Fits .check (decodeCheck c k) := by
  unfold decodeCheck
  split
  · next h => rw [h]; exact ⟨rfl, rfl⟩
  · next hne =>
    split
    · next hq => obtain ⟨rfl, rfl⟩ := hq; exact ⟨rfl, rfl⟩
    · next hq => exact ⟨rfl, rfl, hne, hq⟩

theorem decodeAddress_fits (a : Byte) :
    encode (decodeAddress a) = [a] ∧ Space.Fits .address (decodeAddress a) := by
  unfold decodeAddress
  split
  · next h => rw [h]; exact ⟨rfl, rfl⟩
  · next h1 =>
    split
    · next h => rw [h]; exact ⟨rfl, rfl⟩
    · next h2 =>
      split
      · next h => rw [h]; exact ⟨rfl, rfl⟩
      · next h3 => exact ⟨rfl, rfl, h1, h2, h3⟩

theorem decodeDispatch_fits {b : Byte} {i : Instr} (heq : decodeDispatch b = .ok i) :
    encode i = [b] ∧ Space.Fits .dispatch i := by
  unfold decodeDispatch at heq
  repeat' split at heq
  all_goals cases heq
  all_goals subst b; exact ⟨rfl, rfl⟩

theorem decodeResp_fits {b : Byte} {i : Instr} (heq : decodeResp b = .ok i) :
    encode i = [b] ∧ Space.Fits .resp i := by
  unfold decodeResp at heq
  repeat' split at heq
  all_goals cases heq
  all_goals subst b; exact ⟨rfl, rfl⟩

/-- The register numbers and the fields are one to one (R15). -/
theorem CfgField.ofNumber_eq_some {n : Byte} {f : CfgField} : CfgField.ofNumber n = some f ↔ n = f.number := by
  constructor
  · intro h
    unfold CfgField.ofNumber at h
    repeat' split at h
    all_goals cases h
    all_goals assumption
  · rintro rfl
    cases f <;> rfl

/-- The host's words are those of its five operations. -/
theorem decodeHost_eq_ok {ws : List Byte} {i : Instr} :
    decodeHost ws = .ok i ↔
      (∃ f v, f.admits v = true ∧ ws = [0, f.number, v] ∧ i = .cfgWrite f v) ∨
      (∃ d, ws = 1 :: d ∧ i = .rdqPush d) ∨ (∃ d, ws = 2 :: d ∧ i = .wrqPush d) ∨
      (ws = [3] ∧ i = .reset) ∨ (ws = [4] ∧ i = .stop) := by
  constructor
  · intro heq
    unfold decodeHost at heq
    split at heq
    · cases heq
    · next sel ops =>
      split at heq
      · next hsel =>
        subst hsel
        split at heq
        · next n v =>
          split at heq
          · cases heq
          · next f hf =>
            split at heq
            · next hv =>
              cases heq
              exact .inl ⟨f, v, hv, by rw [CfgField.ofNumber_eq_some.1 hf], rfl⟩
            · cases heq
        · cases heq
      · repeat' split at heq
        all_goals cases heq
        all_goals subst_vars
        · exact .inr (.inl ⟨ops, rfl, rfl⟩)
        · exact .inr (.inr (.inl ⟨ops, rfl, rfl⟩))
        · exact .inr (.inr (.inr (.inl ⟨rfl, rfl⟩)))
        · exact .inr (.inr (.inr (.inr ⟨rfl, rfl⟩)))
  · rintro (⟨f, v, hv, rfl, rfl⟩ | ⟨d, rfl, rfl⟩ | ⟨d, rfl, rfl⟩ | ⟨rfl, rfl⟩ | ⟨rfl, rfl⟩)
    · have hf : CfgField.ofNumber f.number = some f := CfgField.ofNumber_eq_some.2 rfl
      simp [decodeHost, hf, hv]
    all_goals rfl

/-- Settles O2: by the spaces of the decoder. A space that reads one byte or a pair gives the bytes back by the lemma
on its part of the decoder; a frame's word is its own by `splitFrame_eq_ok`; the others copy their word. -/
theorem decodedWordReencodes : Obligations.DecodedWordReencodes := by
  intro sp ws i heq
  cases sp with
  | frame own =>
    obtain ⟨h, a, c, p, k, hp, rfl, rfl⟩ := decode_frame_eq_ok.1 heq
    obtain ⟨rfl, rfl, rfl, hcl⟩ | ⟨rfl, rfl, rfl, hcl⟩ | ⟨hno, hcl⟩ := classify_cases own h a c k p
    all_goals rw [hcl]
    · exact ⟨rfl, rfl⟩
    · exact ⟨rfl, rfl⟩
    · exact ⟨rfl, own, rfl, hp, hno⟩
  | recognizer =>
    obtain ⟨h, a, c, p, k, hp, rfl, hrec⟩ := decode_recognizer_eq_ok.1 heq
    obtain ⟨kind, rfl, rfl, rfl⟩ := recognize_eq_ok.1 hrec
    exact ⟨encode_tokMatch h a k kind, rfl⟩
  | host =>
    obtain ⟨f, v, hv, rfl, rfl⟩ | ⟨d, rfl, rfl⟩ | ⟨d, rfl, rfl⟩ | ⟨rfl, rfl⟩ | ⟨rfl, rfl⟩ := decodeHost_eq_ok.1 heq
    · exact ⟨rfl, rfl, hv⟩
    all_goals exact ⟨rfl, rfl⟩
  | seq =>
    simp only [decode] at heq
    split at heq
    · cases heq
    · next hne => cases heq; exact ⟨rfl, rfl, hne⟩
  | dgram kind =>
    simp only [decode] at heq
    cases heq
    split
    · next hws => rw [hws]; exact ⟨rfl, rfl⟩
    · next hne => exact ⟨rfl, rfl, hne⟩
  | check =>
    match ws, heq with
    | [], heq => cases heq; exact ⟨rfl, rfl⟩
    | [c, k], heq => cases heq; exact decodeCheck_fits c k
  | policy =>
    match ws, heq with
    | [], heq => cases heq; exact ⟨rfl, rfl⟩
  | rxWait =>
    match ws, heq with
    | [b], heq =>
      cases heq
      split
      · next hb => rw [hb]; exact ⟨rfl, rfl⟩
      · next hb => exact ⟨rfl, rfl, hb⟩
  | rxAccum maxFrame idx need =>
    match ws, heq with
    | [b], heq => cases heq; exact decodeAccum_fits maxFrame idx need b
  | dispatch =>
    match ws, heq with
    | [b], heq => exact decodeDispatch_fits heq
  | resp =>
    match ws, heq with
    | [b], heq => exact decodeResp_fits heq
  | fallback kind =>
    match ws, heq with
    | [b], heq =>
      simp only [decode] at heq
      split at heq
      · next hb => cases heq; rw [hb]; exact ⟨rfl, rfl⟩
      · cases heq
  | address =>
    match ws, heq with
    | [a], heq => cases heq; exact decodeAddress_fits a

/-- Settles O1: by the operations. Each one's condition of `Space.Fits` is what its part of the decoder tests; the
tests before it fail because the conditions exclude each other. -/
theorem decodeEncodeAgree : Obligations.DecodeEncodeAgree := by
  intro sp i hfit
  cases i with
  | syncSkip b =>
    obtain ⟨rfl, hb⟩ := hfit
    exact congrArg Except.ok (if_neg hb)
  | accOversize b =>
    obtain ⟨maxFrame, idx, need, rfl, hfull⟩ := hfit
    exact congrArg Except.ok (decodeAccum_of_full hfull b)
  | accShort b =>
    obtain ⟨maxFrame, idx, need, rfl, hidx, h6⟩ := hfit
    exact congrArg Except.ok (decodeAccum_of_short hidx h6 b)
  | accPartial b =>
    obtain ⟨maxFrame, idx, need, rfl, hidx, h6, hneed⟩ := hfit
    exact congrArg Except.ok (decodeAccum_of_partial hidx h6 hneed b)
  | accComplete b =>
    obtain ⟨maxFrame, idx, need, rfl, hidx, h6, hneed⟩ := hfit
    exact congrArg Except.ok (decodeAccum_of_complete hidx h6 hneed b)
  | chkMatch v =>
    cases hfit
    exact congrArg Except.ok (if_pos rfl)
  | chkFail c k =>
    obtain ⟨rfl, hne, hquirk⟩ := hfit
    exact congrArg Except.ok ((if_neg hne).trans (if_neg hquirk))
  | frameRtoken h a k =>
    cases hfit
    exact decode_frame_eq_ok.2 ⟨h, a, 0x69, [], k, by simp, rfl, by simp [classify]⟩
  | frameWtoken h a k =>
    cases hfit
    exact decode_frame_eq_ok.2 ⟨h, a, 0x6B, [], k, by simp, rfl, by simp [classify]⟩
  | frameData h a c p k =>
    obtain ⟨own, rfl, hp, hno⟩ := hfit
    refine decode_frame_eq_ok.2 ⟨h, a, c, p, k, hp, rfl, ?_⟩
    obtain ⟨ha, hnil, hc, -⟩ | ⟨ha, hnil, hc, -⟩ | ⟨-, hcl⟩ := classify_cases own h a c k p
    · exact absurd ⟨ha, by rw [hnil]; rfl, .inl hc⟩ hno
    · exact absurd ⟨ha, by rw [hnil]; rfl, .inr hc⟩ hno
    · exact hcl.symm
  | tokMatch h a kind k =>
    cases hfit
    exact decode_recognizer_eq_ok.2
      ⟨h, a, kind.command, [], k, by simp, rfl, recognize_eq_ok.2 ⟨kind, rfl, rfl, rfl⟩⟩
  | txseq d =>
    obtain ⟨rfl, hd⟩ := hfit
    exact if_neg hd
  | tokRelay kind d =>
    obtain ⟨rfl, hd⟩ := hfit
    exact congrArg Except.ok (if_neg hd)
  | cfgWrite f v =>
    obtain ⟨rfl, hv⟩ := hfit
    exact decodeHost_eq_ok.2 (.inl ⟨f, v, hv, rfl, rfl⟩)
  | addrOther a =>
    obtain ⟨rfl, h1, h2, h3⟩ := hfit
    exact congrArg Except.ok ((if_neg h1).trans ((if_neg h2).trans (if_neg h3)))
  | _ => cases hfit; rfl

/-- Where a word decodes, the operation it decodes to is the only one of the space with that word: decoding the
common word gives both. -/
theorem existsUnique_of_decode {sp : Space} {ws : List Byte} {i : Instr} (h : decode sp ws = .ok i) :
    ∃ i, (sp.Fits i ∧ encode i = ws) ∧ ∀ j, sp.Fits j ∧ encode j = ws → j = i := by
  obtain ⟨hword, hfit⟩ := decodedWordReencodes sp ws i h
  refine ⟨i, ⟨hfit, hword⟩, ?_⟩
  rintro j ⟨hj, rfl⟩
  have hdec : decode sp (encode j) = .ok j := decodeEncodeAgree sp j hj
  rw [h] at hdec
  exact (Except.ok.inj hdec).symm

/-- Settles O4: the decoder of a receiving position answers an operation for every byte. -/
theorem receivedByteSelectsOneOperation : Obligations.ReceivedByteSelectsOneOperation := by
  rintro sp b (rfl | ⟨maxFrame, idx, need, rfl⟩)
  · exact existsUnique_of_decode (sp := .rxWait) rfl
  · exact existsUnique_of_decode (sp := .rxAccum maxFrame idx need) rfl

/-- Settles O5: the decoder answers a class for every frame with at most 255 payload bytes. -/
theorem frameHasOneClass : Obligations.FrameHasOneClass := by
  intro own h a c k p hp
  exact existsUnique_of_decode (decode_frame_eq_ok.2 ⟨h, a, c, p, k, hp, rfl, rfl⟩)

/-- Settles O3: each word is a closed one, and the decoder evaluates it to the row. -/
theorem sampleWordsDecode : Obligations.SampleWordsDecode :=
  ⟨rfl, rfl, rfl, rfl, rfl, rfl, rfl, rfl⟩

end Sys2Proof.Machine
end

section
/-! What a buffer that holds a frame reads as, the exclusive OR of a range of BUF, and the token a state presents
(spec/30 R51, spec/41 R85 to R90, spec/43 R110). -/

namespace Sys2Proof.Machine

theorem Mem.slice_eq_map_range (m : Mem) (a n : Nat) : m.slice a n = (List.range n).map fun i => m.read (i + a) := by
  induction n with
  | zero => rfl
  | succ n ih => rw [Mem.slice_succ, List.range_succ, List.map_append, ih, Nat.add_comm a n]; rfl

/-- Bytes loaded into BUF are read back, and no index below them is written. -/
theorem Mem.slice_load {m : Mem} (hw : m.wf) (a : Nat) (bs : List Byte) : (m.load a bs).slice a bs.length = bs := by
  suffices h : ∀ (m : Mem) (a : Nat), m.wf →
      (∀ i < a, (m.load a bs).read i = m.read i) ∧ (m.load a bs).slice a bs.length = bs from (h m a hw).2
  clear hw a m
  induction bs with
  | nil => exact fun m a _ => ⟨fun i _ => rfl, rfl⟩
  | cons b bs ih =>
    intro m a hw
    obtain ⟨hbelow, hslice⟩ := ih (m.write a b) (a + 1) (Mem.wf_write hw a b)
    refine ⟨fun i hi => ?_, ?_⟩
    · exact (hbelow i (by omega)).trans (Mem.read_write_ne hw (by omega) b)
    · have hhead : ((m.write a b).load (a + 1) bs).read a = b :=
        (hbelow a (by omega)).trans (Mem.read_write_same hw a b)
      rw [List.length_cons, Mem.load, Mem.slice, hhead, hslice]

theorem Mem.load_append (m : Mem) (a : Nat) (bs cs : List Byte) :
    m.load a (bs ++ cs) = (m.load a bs).load (a + bs.length) cs := by
  induction bs generalizing m a with
  | nil => rfl
  | cons b bs ih =>
    rw [List.cons_append, Mem.load, ih, Mem.load, List.length_cons, Nat.add_right_comm, Nat.add_assoc]

/-- A buffer whose first bytes are a frame, field by field (R51). -/
structure Mem.HoldsFrame (m : Mem) (h a c : Byte) (p : Datagram) (k : Byte) : Prop where
  start : m.read 0 = 0x5C
  addr : m.read 2 = a
  cmd : m.read 3 = c
  length : m.read 4 = BitVec.ofNat 8 p.length
  body : m.slice 1 (p.length + 4) = h :: a :: c :: BitVec.ofNat 8 p.length :: p
  chk : m.read (p.length + 5) = k

/-- A slice that is a frame's word has the frame's size, and the buffer holds the frame. -/
theorem Mem.holdsFrame_of_slice {m : Mem} {n : Nat} {h a c k : Byte} {p : Datagram}
    (hs : m.slice 0 n = encode (.frameData h a c p k)) : n = p.length + 6 ∧ m.HoldsFrame h a c p k := by
  have hn : n = p.length + 6 := by
    have hlen := congrArg List.length hs
    rw [Mem.slice_length] at hlen
    rw [hlen]; simp [encode]
  subst hn
  have happ : m.slice 0 (p.length + 5) ++ [m.read (p.length + 5)] =
      (0x5C :: h :: a :: c :: BitVec.ofNat 8 p.length :: p) ++ [k] := by
    have hsucc := Mem.slice_succ m 0 (p.length + 5)
    rw [Nat.zero_add] at hsucc
    exact hsucc.symm.trans hs
  obtain ⟨hinit, hlast⟩ := List.append_inj' happ rfl
  have hbody : m.slice 1 (p.length + 4) = h :: a :: c :: BitVec.ofNat 8 p.length :: p := (List.cons.inj hinit).2
  have hbytes := hinit
  simp only [Mem.slice, List.cons.injEq, Nat.zero_add, Nat.reduceAdd] at hbytes
  obtain ⟨h0, -, h2, h3, h4, -⟩ := hbytes
  exact ⟨rfl, h0, h2, h3, h4, hbody, (List.cons.inj hlast).1⟩

/-- The state's frame in progress is a frame's word: its position and its bytes. -/
theorem State.holdsFrame_of_frameBytes {s : State} {h a c k : Byte} {p : Datagram}
    (hs : s.frameBytes = encode (.frameData h a c p k)) : s.idx = p.length + 6 ∧ s.buf.HoldsFrame h a c p k :=
  Mem.holdsFrame_of_slice hs

namespace Mem.HoldsFrame

variable {m : Mem} {h a c k : Byte} {p : Datagram}

theorem zext_length (hm : m.HoldsFrame h a c p k) (hp : p.length ≤ 255) : zext (m.read 4) = p.length := by
  rw [hm.length, zext_ofNat_length hp]

/-- The verdict on a buffer that holds a frame is the condition on the frame's operands (R90). -/
theorem chkAccept_eq (hm : m.HoldsFrame h a c p k) (hp : p.length ≤ 255) :
    m.chkAccept = (Instr.frameData h a c p k).WellFormed := by
  have hlen : m.len = p.length := hm.zext_length hp
  rw [Mem.chkAccept, verdict_eq_accepted, Mem.computed, Mem.stored, hlen, hm.body, hm.chk]
  simp [Instr.WellFormed, hp]

end Mem.HoldsFrame

/-! The exclusive OR of a range. -/

theorem xorAll_append (bs cs : List Byte) : xorAll (bs ++ cs) = xorAll bs ^^^ xorAll cs := by
  induction bs with
  | nil => simp [xorAll]
  | cons b bs ih => rw [List.cons_append, xorAll, ih, xorAll, BitVec.xor_assoc]

/-- The exclusive OR of the range with the stored byte is `calc ^ stored` (R90). -/
theorem Mem.xorAll_whole (m : Mem) : xorAll (m.slice 1 (m.len + 5)) = m.computed ^^^ m.stored := by
  rw [Mem.slice_succ m 1 (m.len + 4), xorAll_append, Mem.computed, Mem.stored, Nat.add_comm 1 (m.len + 4)]
  simp [xorAll]

/-- Writing a byte of the range anew changes the exclusive OR by the bits that changed. -/
theorem Mem.xorAll_slice_write {m : Mem} (hw : m.wf) {j a n : Nat} (d : Byte) (ha : a ≤ j) (hj : j < a + n) :
    xorAll ((m.write j (m.read j ^^^ d)).slice a n) = xorAll (m.slice a n) ^^^ d := by
  induction n with
  | zero => omega
  | succ n ih =>
    rw [Mem.slice_succ, Mem.slice_succ, xorAll_append, xorAll_append]
    by_cases hlast : j = a + n
    · subst hlast
      have hrest : (m.write (a + n) (m.read (a + n) ^^^ d)).slice a n = m.slice a n :=
        Mem.slice_congr fun i _ hi => Mem.read_write_ne hw (by omega) _
      rw [hrest, Mem.read_write_same hw]
      simp [xorAll, BitVec.xor_assoc]
    · rw [ih (by omega), Mem.read_write_ne hw (Ne.symm hlast)]
      simp only [xorAll]
      ac_rfl

/-! The token a state presents. -/

theorem State.presents_iff {s : State} {k : TokenKind} : s.Presents k ↔ s.tokenKind = some k := by
  rw [tokenKind_eq_some]
  cases k <;> simp [TokenKind.command]

theorem State.isToken_eq_true_iff {s : State} : s.isToken = true ↔ ∃ k, s.Presents k := by
  simp only [State.presents_iff, State.isToken, Option.isSome_iff_exists]

theorem State.isToken_eq_false_iff {s : State} : s.isToken = false ↔ ¬∃ k, s.Presents k := by
  rw [← State.isToken_eq_true_iff, Bool.not_eq_true]

/-- A frame that waits for its dispatch presents a token exactly where it is a token frame for the gateway (R110). -/
theorem State.presents_of_holdsFrame {s : State} {h a c k : Byte} {p : Datagram} {kind : TokenKind}
    (hm : s.buf.HoldsFrame h a c p k) (hp : p.length ≤ 255) (hd : s.dstate = .frameReady) :
    s.Presents kind ↔ a = s.cfg.ownAddress ∧ p = [] ∧ c = kind.command := by
  have hnil : s.buf.read 4 = 0 ↔ p = [] := by
    rw [← List.length_eq_zero_iff, ← hm.zext_length hp]
    exact ⟨fun h4 => by rw [h4]; rfl, fun h4 => BitVec.eq_of_toNat_eq h4⟩
  rw [State.presents_iff, tokenKind_eq_some, hm.addr, hm.cmd, hnil]
  exact and_iff_right hd

end Sys2Proof.Machine
end

section
/-! What an operation can do, said once for all 34: the block's reply, the token arbiter, and the effect of an
operation. The statements over all operations follow by cases of the effect. -/

namespace Sys2Proof.Machine

/-- What the block hands to the transport in one answer: nothing, or one list in one transmit sequence (R101). -/
inductive State.Replies (s : State) : State → Prop
  | silent : s.Replies s
  | sent (d : Datagram) : s.de = false → s.Replies (s.sent d)

/-- What the token arbiter does for a token of kind `k`: a reply, or the claim of the oldest datagram of the kind
and then a reply (R112). -/
inductive State.Arbitrates (s : State) (k : TokenKind) : State → Prop
  | unclaimed {t : State} : s.Replies t → s.Arbitrates k t
  | claimed (d : Datagram) (q : List Datagram) {t : State} :
      s.queue k = d :: q → (s.claimed k d q).Replies t → s.Arbitrates k t

/-- Appending is what a byte does that leaves a frame incomplete (R74, R75). -/
def State.Grows (s : State) : Prop :=
  s.Receiving .accum ∧ s.idx < s.params.maxFrame ∧ (s.idx + 1 < 6 ∨ (6 ≤ s.idx + 1 ∧ s.idx + 1 < s.need))

/-- The next states of the operations. -/
inductive Effect (s : State) : Instr → State → Prop
  /-- a reply and nothing else; the empty reply is SYNC.SKIP's -/
  | replied {i : Instr} {t : State} : s.Replies t → Effect s i t
  /-- a pure operation run alone -/
  | answered {i : Instr} (a : Answer) : Effect s i (s.answering a)
  | started : s.Receiving .waitStart → 0 < s.params.maxFrame →
      Effect s .syncStart { s with buf := s.buf.write 0 0x5C, idx := 1, dstate := .accum }
  | overflowed {b : Byte} : s.Receiving .accum → s.params.maxFrame ≤ s.idx →
      Effect s (.accOversize b) (s.enter .invalid)
  | grown {i : Instr} {b : Byte} : i = .accShort b ∨ i = .accPartial b → s.Grows → Effect s i (s.append b)
  | completed {b : Byte} : s.Receiving .accum → s.idx < s.params.maxFrame → 6 ≤ s.idx + 1 → s.need ≤ s.idx + 1 →
      Effect s (.accComplete b) (s.append b).judged
  /-- the arbiter's claim run alone, inside a token's grant -/
  | arbitrated {i : Instr} {k : TokenKind} {t : State} : s.Presents k → s.Arbitrates k t → Effect s i t
  /-- the dispatch of a token -/
  | granted {i : Instr} {k : TokenKind} {t : State} : s.stopped = false → s.Presents k →
      (s.emit (.token k)).Arbitrates k t → Effect s i t.resume
  /-- the dispatch of a data frame -/
  | handedOn {i : Instr} {t : State} (d : Datagram) (fwd : Bool) : s.stopped = false → s.Replies t →
      Effect s i (t.handOn d fwd).resume
  /-- the dispatch of a frame that is not accepted -/
  | resumed {i : Instr} {t : State} : s.stopped = false → s.Replies t → Effect s i t.resume
  | configured (f : CfgField) (v : Byte) : Effect s (.cfgWrite f v) { s with cfg := writeField s.cfg v f }
  | pushedRead (d : Datagram) : Effect s (.rdqPush d) { s with rdq := s.rdq ++ [d] }
  | pushedWrite (d : Datagram) : Effect s (.wrqPush d) { s with wrq := s.wrq ++ [d] }
  | reset : Effect s .reset { s with
      dstate := .waitStart, idx := 0, de := false, stopped := false, cfg := s.params.cfgInit, out := [] }
  | stop : Effect s .stop { s with stopped := true, idx := 0, dstate := .waitStart }

theorem State.Replies.of_ackAdmitted {s t : State} (h : ackAdmitted s = .next t) : s.Replies t := by
  obtain ⟨-, hde, rfl⟩ | ⟨-, rfl⟩ := ackAdmitted_eq_next.1 h
  · exact .sent _ hde
  · exact .silent

theorem State.Arbitrates.of_handleToken {k : TokenKind} {s t : State} (h : handleToken k s = .next t) :
    s.Arbitrates k t := by
  obtain ⟨-, hack⟩ | ⟨d, q, hq, -, hde, rfl⟩ | ⟨q, hq, hack⟩ := handleToken_eq_next.1 h
  · exact .unclaimed (.of_ackAdmitted hack)
  · exact .claimed d q hq (.sent d (by rw [State.claimed_de]; exact hde))
  · exact .claimed [] q hq (.of_ackAdmitted hack)

theorem Effect.of_dispatchGrant {i : Instr} {k : TokenKind} {s t : State} (hs : s.stopped = false)
    (hk : s.Presents k) (h : dispatchGrant k s = .next t) : Effect s i t := by
  obtain ⟨-, u, hu, rfl⟩ := dispatchGrant_eq_next.1 h
  exact .granted hs hk (.of_handleToken hu)

theorem Effect.of_dispatchFrame {i : Instr} {s t : State} (hs : s.stopped = false)
    (h : dispatchFrame s = .next t) : Effect s i t := by
  obtain ⟨-, ⟨-, hde, rfl⟩ | ⟨-, rfl⟩⟩ := dispatchFrame_eq_next.1 h
  · exact .handedOn _ _ hs (.sent _ hde)
  · exact .handedOn _ _ hs .silent

/-- Every next state of an operation is one of its effects. -/
theorem effect_of_exec {i : Instr} {s t : State} (h : exec i s = .next t) : Effect s i t := by
  cases i with
  | syncSkip b => obtain ⟨-, rfl⟩ := exec_syncSkip_eq_next.1 h; exact .replied .silent
  | syncStart => obtain ⟨hr, hmax, rfl⟩ := exec_syncStart_eq_next.1 h; exact .started hr hmax
  | accOversize b => obtain ⟨⟨hr, hfull⟩, rfl⟩ := exec_accOversize_eq_next.1 h; exact .overflowed hr hfull
  | accShort b =>
    obtain ⟨⟨hr, hidx, h6⟩, rfl⟩ := exec_accShort_eq_next.1 h
    exact .grown (.inl rfl) ⟨hr, hidx, .inl h6⟩
  | accPartial b =>
    obtain ⟨⟨hr, hidx, h6, hneed⟩, rfl⟩ := exec_accPartial_eq_next.1 h
    exact .grown (.inr rfl) ⟨hr, hidx, .inr ⟨h6, hneed⟩⟩
  | accComplete b =>
    obtain ⟨⟨hr, hidx, h6, hneed⟩, rfl⟩ := exec_accComplete_eq_next.1 h
    exact .completed hr hidx h6 hneed
  | chkCompute => obtain ⟨-, -, rfl⟩ := exec_chkCompute_eq_next.1 h; exact .answered _
  | chkMatch v => obtain rfl := exec_chkMatch_eq_next.1 h; exact .answered _
  | chkQuirk => obtain rfl := exec_chkQuirk_eq_next.1 h; exact .answered _
  | chkFail c k => obtain ⟨-, rfl⟩ := exec_chkFail_eq_next.1 h; exact .answered _
  | frameRtoken hdr1 a k =>
    obtain ⟨⟨hs, ⟨hd, hframe⟩, hown⟩, hgrant⟩ := exec_frameRtoken_eq_next.1 h
    have hm := State.holdsFrame_of_frameBytes (p := []) hframe
    exact .of_dispatchGrant hs ((State.presents_of_holdsFrame hm.2 (by simp) hd).2 ⟨hown, rfl, rfl⟩) hgrant
  | frameWtoken hdr1 a k =>
    obtain ⟨⟨hs, ⟨hd, hframe⟩, hown⟩, hgrant⟩ := exec_frameWtoken_eq_next.1 h
    have hm := State.holdsFrame_of_frameBytes (p := []) hframe
    exact .of_dispatchGrant hs ((State.presents_of_holdsFrame hm.2 (by simp) hd).2 ⟨hown, rfl, rfl⟩) hgrant
  | frameData hdr1 a c p k =>
    obtain ⟨⟨hs, -, -⟩, hdisp⟩ := exec_frameData_eq_next.1 h
    exact .of_dispatchFrame hs hdisp
  | dispatchData =>
    obtain ⟨⟨hs, -, -⟩, hdisp⟩ := exec_dispatchData_eq_next.1 h
    exact .of_dispatchFrame hs hdisp
  | dispatchToken =>
    obtain ⟨k, hk, hs, hgrant⟩ := exec_dispatchToken_eq_next.1 h
    exact .of_dispatchGrant hs (State.presents_iff.2 hk) hgrant
  | dispatchChkfail =>
    obtain ⟨⟨hs, -⟩, -, ⟨-, hde, rfl⟩ | ⟨-, rfl⟩⟩ := exec_dispatchChkfail_eq_next.1 h
    · exact .resumed hs (.sent _ hde)
    · exact .resumed hs .silent
  | dispatchInvalid =>
    obtain ⟨⟨hs, -⟩, rfl⟩ := exec_dispatchInvalid_eq_next.1 h
    exact .resumed hs .silent
  | ackDecide => obtain ⟨-, -, rfl⟩ := exec_ackDecide_eq_next.1 h; exact .answered _
  | ackSend => obtain ⟨hde, rfl⟩ := exec_ackSend_eq_next.1 h; exact .replied (.sent _ hde)
  | nakSend => obtain ⟨hde, rfl⟩ := exec_nakSend_eq_next.1 h; exact .replied (.sent _ hde)
  | txseq d => obtain ⟨hde, -, rfl⟩ := exec_txseq_eq_next.1 h; exact .replied (.sent _ hde)
  | tokMatch hdr1 a kind k => obtain ⟨-, -, rfl⟩ := exec_tokMatch_eq_next.1 h; exact .answered _
  | tokRelay kind d =>
    obtain ⟨⟨⟨-, hk⟩, hq, -⟩, -, hde, rfl⟩ := exec_tokRelay_eq_next.1 h
    exact .arbitrated (State.presents_iff.2 hk)
      (.claimed d _ (List.cons_head?_tail hq).symm (.sent d (by rw [State.claimed_de]; exact hde)))
  | tokFallback kind =>
    obtain ⟨-, -, hack⟩ := exec_tokFallback_eq_next.1 h
    exact .replied (.of_ackAdmitted hack)
  | tokEmpty kind =>
    obtain ⟨⟨⟨-, hk⟩, hq⟩, -, hack⟩ := exec_tokEmpty_eq_next.1 h
    exact .arbitrated (State.presents_iff.2 hk)
      (.claimed [] _ (List.cons_head?_tail hq).symm (.of_ackAdmitted hack))
  | cfgWrite f v => obtain ⟨-, rfl⟩ := exec_cfgWrite_eq_next.1 h; exact .configured f v
  | rdqPush d => obtain rfl := exec_rdqPush_eq_next.1 h; exact .pushedRead d
  | wrqPush d => obtain rfl := exec_wrqPush_eq_next.1 h; exact .pushedWrite d
  | reset => obtain rfl := exec_reset_eq_next.1 h; exact .reset
  | stop => obtain rfl := exec_stop_eq_next.1 h; exact .stop
  | addrSms40 => obtain rfl := exec_addrSms40_eq_next.1 h; exact .answered _
  | addrRmu40 => obtain rfl := exec_addrRmu40_eq_next.1 h; exact .answered _
  | addrModbus40 => obtain rfl := exec_addrModbus40_eq_next.1 h; exact .answered _
  | addrOther a => obtain ⟨-, rfl⟩ := exec_addrOther_eq_next.1 h; exact .answered _

/-! What a reply and the arbiter leave unchanged, and what they add to the trace. -/

/-- A reply touches the direction, TXS and the trace only. -/
theorem State.Replies.eq {s t : State} (h : s.Replies t) :
    t = { s with de := t.de, txs := t.txs, out := t.out } := by
  cases h with
  | silent => rfl
  | sent d _ => rfl

/-- The arbiter touches the direction, TXS, the trace and the queues only. -/
theorem State.Arbitrates.eq {k : TokenKind} {s t : State} (h : s.Arbitrates k t) :
    t = { s with de := t.de, txs := t.txs, out := t.out, rdq := t.rdq, wrq := t.wrq } := by
  cases h with
  | unclaimed hr => exact hr.eq ▸ rfl
  | claimed d q _ hr => rw [hr.eq]; cases k <;> rfl

theorem State.Replies.buf {s t : State} (h : s.Replies t) : t.buf = s.buf := by rw [h.eq]

theorem State.Replies.stopped {s t : State} (h : s.Replies t) : t.stopped = s.stopped := by rw [h.eq]

theorem State.Arbitrates.buf {k : TokenKind} {s t : State} (h : s.Arbitrates k t) : t.buf = s.buf := by rw [h.eq]

theorem State.Arbitrates.stopped {k : TokenKind} {s t : State} (h : s.Arbitrates k t) : t.stopped = s.stopped := by
  rw [h.eq]

/-- The trace of `t` is that of `s` and then events with at most one transmission among them, and the direction is
at receive after if it was before (R19, R101). -/
def State.Adds (s t : State) : Prop :=
  ∃ es, t.out = s.out ++ es ∧ (transmissions es).length ≤ 1 ∧ (s.de = false → t.de = false)

theorem State.Adds.of_out_eq {s t : State} (ho : t.out = s.out) (hd : t.de = s.de) : s.Adds t :=
  ⟨[], by rw [ho, List.append_nil], by simp [transmissions], fun h => hd.trans h⟩

theorem transmissions_append (es fs : List Event) :
    transmissions (es ++ fs) = transmissions es ++ transmissions fs := by
  induction es with
  | nil => rfl
  | cons e es ih => cases e <;> simp [transmissions, ih]

/-- An event that is no transmission may come before or after. -/
theorem State.Adds.emit_left {s t : State} {e : Event} (he : transmissions [e] = []) (h : (s.emit e).Adds t) :
    s.Adds t := by
  obtain ⟨es, ho, hn, hd⟩ := h
  refine ⟨e :: es, by rw [ho, State.emit_out, List.append_assoc]; rfl, ?_, hd⟩
  rw [← List.singleton_append, transmissions_append, he]
  exact hn

theorem State.Adds.emit_right {s t : State} {e : Event} (he : transmissions [e] = []) (h : s.Adds t) :
    s.Adds (t.emit e) := by
  obtain ⟨es, ho, hn, hd⟩ := h
  refine ⟨es ++ [e], by rw [State.emit_out, ho, List.append_assoc], ?_, hd⟩
  rw [transmissions_append, he, List.append_nil]
  exact hn

theorem State.Replies.adds {s t : State} (h : s.Replies t) : s.Adds t := by
  cases h with
  | silent => exact .of_out_eq rfl rfl
  | sent d _ => exact ⟨bracket s.params.tSettle d, State.sent_out_bracket s d, Nat.le_refl 1, fun _ => rfl⟩

theorem State.Arbitrates.adds {k : TokenKind} {s t : State} (h : s.Arbitrates k t) : s.Adds t := by
  cases h with
  | unclaimed hr => exact hr.adds
  | claimed d q _ hr =>
    have hadds : ((s.setQueue k q).emit (.claim k d)).Adds t := hr.adds
    obtain ⟨es, ho, hn, hd⟩ := hadds.emit_left rfl
    exact ⟨es, by rw [ho, State.setQueue_out], hn, fun h => hd (by rw [State.setQueue_de]; exact h)⟩

/-- The arbiter takes the oldest datagram of the token's kind or none, and none of the other kind (R112). -/
theorem State.Arbitrates.queues {k : TokenKind} {s t : State} (h : s.Arbitrates k t) :
    (t.rdq = s.rdq ∨ (k = .read ∧ ∃ d, s.rdq = d :: t.rdq)) ∧
      (t.wrq = s.wrq ∨ (k = .write ∧ ∃ d, s.wrq = d :: t.wrq)) := by
  cases h with
  | unclaimed hr => rw [hr.eq]; exact ⟨.inl rfl, .inl rfl⟩
  | claimed d q hq hr =>
    rw [hr.eq]
    cases k with
    | read => exact ⟨.inr ⟨rfl, d, hq⟩, .inl rfl⟩
    | write => exact ⟨.inl rfl, .inr ⟨rfl, d, hq⟩⟩

/-- The same where the token is presented before its event is emitted. -/
theorem State.Arbitrates.queues_of_presents {k : TokenKind} {s u t : State} (ha : u.Arbitrates k t)
    (hk : s.Presents k) (hr : u.rdq = s.rdq) (hw : u.wrq = s.wrq) :
    (t.rdq = s.rdq ∨ (s.Presents .read ∧ ∃ d, s.rdq = d :: t.rdq)) ∧
      (t.wrq = s.wrq ∨ (s.Presents .write ∧ ∃ d, s.wrq = d :: t.wrq)) := by
  obtain ⟨hread, hwrite⟩ := ha.queues
  rw [hr] at hread
  rw [hw] at hwrite
  exact ⟨hread.imp_right fun ⟨hkr, hd⟩ => ⟨hkr ▸ hk, hd⟩, hwrite.imp_right fun ⟨hkw, hd⟩ => ⟨hkw ▸ hk, hd⟩⟩

/-! The statements over all operations. -/

/-- Settles O47: no effect touches these parts; `cfg` is written by CFG.WRITE and RESET. -/
theorem configurationIsTheHosts : Obligations.ConfigurationIsTheHosts := by
  intro i s t h
  cases effect_of_exec h with
  | replied hr => rw [hr.eq]; exact ⟨rfl, rfl, rfl, rfl, fun _ _ => rfl⟩
  | arbitrated _ ha => rw [ha.eq]; exact ⟨rfl, rfl, rfl, rfl, fun _ _ => rfl⟩
  | granted _ _ ha => rw [ha.eq]; exact ⟨rfl, rfl, rfl, rfl, fun _ _ => rfl⟩
  | handedOn d fwd _ hr => rw [hr.eq]; exact ⟨rfl, rfl, rfl, rfl, fun _ _ => rfl⟩
  | resumed _ hr => rw [hr.eq]; exact ⟨rfl, rfl, rfl, rfl, fun _ _ => rfl⟩
  | configured f v => exact ⟨rfl, rfl, rfl, rfl, fun _ hcfg => absurd rfl (hcfg f v)⟩
  | reset => exact ⟨rfl, rfl, rfl, rfl, fun hne _ => absurd rfl hne⟩
  | _ => exact ⟨rfl, rfl, rfl, rfl, fun _ _ => rfl⟩

/-- Settles O48: only the arbiter and the pushes touch a queue. -/
theorem queuesMoveByTokenOrPush : Obligations.QueuesMoveByTokenOrPush := by
  intro i s t h
  cases effect_of_exec h with
  | replied hr => rw [hr.eq]; exact ⟨.inl rfl, .inl rfl⟩
  | handedOn d fwd _ hr => rw [hr.eq]; exact ⟨.inl rfl, .inl rfl⟩
  | resumed _ hr => rw [hr.eq]; exact ⟨.inl rfl, .inl rfl⟩
  | arbitrated hk ha =>
    obtain ⟨hread, hwrite⟩ := ha.queues_of_presents hk rfl rfl
    exact ⟨hread.imp_right .inr, hwrite.imp_right .inr⟩
  | granted _ hk ha =>
    obtain ⟨hread, hwrite⟩ := ha.queues_of_presents hk rfl rfl
    exact ⟨hread.imp_right .inr, hwrite.imp_right .inr⟩
  | pushedRead d => exact ⟨.inr (.inl ⟨d, rfl, rfl⟩), .inl rfl⟩
  | pushedWrite d => exact ⟨.inl rfl, .inr (.inl ⟨d, rfl, rfl⟩)⟩
  | _ => exact ⟨.inl rfl, .inl rfl⟩

/-- Settles O49: only the start of a frame and an appended byte write to BUF, one byte at the index the effect
names. -/
theorem bufferWrittenByReceptionOnly : Obligations.BufferWrittenByReceptionOnly := by
  intro i s t hw h
  cases effect_of_exec h with
  | replied hr => exact .inl hr.buf
  | arbitrated _ ha => exact .inl ha.buf
  | granted _ _ ha => exact .inl ha.buf
  | handedOn d fwd _ hr => exact .inl hr.buf
  | resumed _ hr => exact .inl hr.buf
  | started hr _ => exact .inr (.inl ⟨rfl, hr.1, hr.2, fun a ha => Mem.read_write_ne hw ha _⟩)
  | grown hi hg =>
    obtain ⟨⟨hs, hd⟩, -⟩ := hg
    exact .inr (.inr ⟨⟨_, hi.imp_right .inl⟩, hs, hd, fun a ha => Mem.read_write_ne hw ha _⟩)
  | completed hr _ _ _ =>
    exact .inr (.inr ⟨⟨_, .inr (.inr rfl)⟩, hr.1, hr.2, fun a ha => Mem.read_write_ne hw ha _⟩)
  | _ => exact .inl rfl

/-- Settles O51: a reply is one bracket at most; what comes before and behind it is no transmission. -/
theorem atMostOneTransmission : Obligations.AtMostOneTransmission := by
  intro i s t hi h
  show s.Adds t
  cases effect_of_exec h with
  | replied hr => exact hr.adds
  | overflowed _ _ => exact (State.Adds.of_out_eq rfl rfl : s.Adds s).emit_right rfl
  | completed _ _ _ _ => exact (State.Adds.of_out_eq rfl rfl : s.Adds s).emit_right rfl
  | arbitrated _ ha => exact ha.adds
  | granted _ _ ha => exact ha.adds.emit_left rfl
  | handedOn d fwd _ hr => exact hr.adds.emit_right (e := .frameOut d fwd) rfl
  | resumed _ hr => exact hr.adds
  | reset => exact absurd rfl hi
  | _ => exact .of_out_eq rfl rfl

/-- No effect but STOP's and RESET's touches run control (R18, R154). -/
theorem exec_stopped {i : Instr} {s t : State} (h : exec i s = .next t) (hr : i ≠ .reset) (hs : i ≠ .stop) :
    t.stopped = s.stopped := by
  cases effect_of_exec h with
  | replied hr => exact hr.stopped
  | arbitrated _ ha => exact ha.stopped
  | granted _ _ ha => exact ha.stopped
  | handedOn d fwd _ hr => exact hr.stopped
  | resumed _ hr => exact hr.stopped
  | reset => exact absurd rfl hr
  | stop => exact absurd rfl hs
  | _ => rfl

end Sys2Proof.Machine
end

section
/-! The step: what it fetches and leaves alone, how it runs what it fetched, and the invariants every step keeps
(spec/44 R125, spec/10_state.md section 9). -/

namespace Sys2Proof.Machine

/-! What a fetch leaves unchanged. -/

/-- The block's turn runs its operation on the state it has, but for a received byte. -/
theorem fetchBlock_run_frame {v u : State} {i : Instr} (h : fetchBlock v = .run i u) :
    u = { v with rxq := u.rxq } ∧ (u.rxq = v.rxq ∨ (v.stopped = false ∧ v.Receives ∧ ∃ b, v.rxq = b :: u.rxq)) := by
  obtain ⟨hs, ⟨hr, b, rest, hq, -, rfl⟩ | ⟨-, -, rfl⟩ | ⟨-, -, rfl⟩ | ⟨-, -, rfl⟩⟩ := fetchBlock_eq_run.1 h
  · exact ⟨rfl, .inr ⟨hs, hr, b, hq⟩⟩
  all_goals exact ⟨rfl, .inl rfl⟩

/-- An operation presented alone runs on the state without it. -/
theorem fetch_of_probe {s : State} {sp : Space} {ws : List Byte} (h : s.probe = some (sp, ws)) :
    fetch s = fetchWord sp ws { s with probe := none } := by
  simp only [fetch, h]

/-- What runs is the state with a received byte, a move of the agenda or the probe taken out. -/
theorem fetch_run_frame {s u : State} {i : Instr} (h : fetch s = .run i u) :
    u = { s with rxq := u.rxq, agenda := u.agenda, probe := u.probe } := by
  cases hp : s.probe with
  | none =>
    obtain ⟨-, hb⟩ | ⟨r, -, hb⟩ | ⟨ws, r, -, -, rfl⟩ := (fetch_eq_run hp).1 h
    · rw [(fetchBlock_run_frame hb).1]
    · rw [(fetchBlock_run_frame hb).1]
    · rfl
  | some w =>
    rw [fetch_of_probe hp] at h
    obtain ⟨-, rfl⟩ := fetchWord_eq_run.1 h
    rfl

/-- An operation presented alone is always run, so a settled state was fetched with none presented. -/
theorem probe_eq_none_of_settled {s t : State} (h : fetch s = .settled t) : s.probe = none := by
  cases hp : s.probe with
  | none => rfl
  | some w =>
    rw [fetch_of_probe hp] at h
    exact absurd h fetchWord_ne_settled

/-- An idle turn and a move of the environment touch the agenda, RXQ and FOUT only. -/
theorem fetch_settled_frame {s t : State} (h : fetch s = .settled t) :
    t = { s with rxq := t.rxq, agenda := t.agenda, fout := t.fout } := by
  obtain ⟨-, -, rfl⟩ | ⟨r, -, -, rfl⟩ | ⟨b, r, -, rfl⟩ | ⟨r, -, rfl⟩ :=
    (fetch_eq_settled (probe_eq_none_of_settled h)).1 h
  all_goals rfl

/-- A property of states that does not look at the receive stream, the frame output, the agenda and the probe, and
that every operation keeps, is kept by every step. -/
theorem step_keeps {P : State → Prop}
    (hframe : ∀ (s : State) rxq fout agenda probe,
      P s → P { s with rxq := rxq, fout := fout, agenda := agenda, probe := probe })
    (hexec : ∀ (i : Instr) (s t : State), P s → exec i s = .next t → P t)
    {s t : State} (hs : P s) (h : step s = .next t) : P t := by
  obtain ⟨-, ⟨i, u, hf, hu⟩ | hf⟩ := step_eq_next.1 h
  · have hPu : P u := by
      rw [fetch_run_frame hf]
      exact hframe s u.rxq s.fout u.agenda u.probe hs
    exact hexec i u t hPu hu
  · rw [fetch_settled_frame hf]
    exact hframe s t.rxq t.fout t.agenda s.probe hs

/-! How a step runs what it fetched. -/

theorem step_of_run {s u : State} {i : Instr} (hl : s.params.Legal) (h : fetch s = .run i u) :
    step s = exec i u := by rw [step, if_pos hl, h]

theorem step_of_settled {s t : State} (hl : s.params.Legal) (h : fetch s = .settled t) : step s = .next t :=
  step_eq_next.2 ⟨hl, .inr h⟩

theorem step_of_blockRun {s u v : State} {i : Instr} (hm : BlockMoves s u) (h : fetchBlock u = .run i v) :
    step s = exec i v := step_of_run hm.1 ((fetch_of_blockMoves hm).trans h)

/-- Settles O6: each kind of move fetches its operation, and the step runs what it fetched. -/
theorem stepRunsDecodedOperation : Obligations.StepRunsDecodedOperation := by
  refine ⟨?_, ?_, ?_, ?_, ?_, ?_⟩
  · intro s u b rest i hm hs hr hq hdec
    exact step_of_blockRun hm (fetchBlock_eq_run.2 ⟨hs, .inl ⟨hr, b, rest, hq, hdec, rfl⟩⟩)
  · intro s u hm hs hd
    have hrun : step s = exec u.frameOp u :=
      step_of_blockRun hm (fetchBlock_eq_run.2 ⟨hs, .inr (.inl ⟨hd, rfl, rfl⟩)⟩)
    rw [hrun, State.frameOp]
    split <;> rfl
  · intro s u hm hs hd
    exact step_of_blockRun hm (fetchBlock_eq_run.2 ⟨hs, .inr (.inr (.inl ⟨hd, rfl, rfl⟩))⟩)
  · intro s u hm hs hd
    exact step_of_blockRun hm (fetchBlock_eq_run.2 ⟨hs, .inr (.inr (.inr ⟨hd, rfl, rfl⟩))⟩)
  · intro s ws rest i hl hp ha hdec
    exact step_of_run hl ((fetch_eq_run hp).2 (.inr (.inr ⟨ws, rest, ha, hdec, rfl⟩)))
  · intro s sp ws i hl hp hdec
    exact step_of_run hl ((fetch_of_probe hp).trans (fetchWord_eq_run.2 ⟨hdec, rfl⟩))

/-- Settles O7: a quiescent block's turn settles on the state it has. -/
theorem idleTurnChangesNothing : Obligations.IdleTurnChangesNothing := by
  intro s u hm hq
  exact step_of_settled hm.1 ((fetch_of_blockMoves hm).trans (fetchBlock_eq_settled.2 ⟨hq, rfl⟩))

/-- Settles O8: both moves settle, on the state with the move taken off the agenda. -/
theorem environmentMoves : Obligations.EnvironmentMoves := by
  constructor
  · intro s b rest hl hp ha
    exact step_of_settled hl ((fetch_eq_settled hp).2 (.inr (.inr (.inl ⟨b, rest, ha, rfl⟩))))
  · intro s rest hl hp ha
    exact step_of_settled hl
      ((fetch_eq_settled hp).2 (.inr (.inr (.inr ⟨rest, ha, by rw [List.drop_one]⟩))))

/-- Settles O39: a stopped block is quiescent, and no operation but STOP and RESET touches run control. -/
theorem stoppedUntilReset : Obligations.StoppedUntilReset := by
  refine ⟨fun s u hm hs => idleTurnChangesNothing s u hm (.inl hs), fun i s t h => ⟨?_, ?_, ?_, ?_⟩⟩
  · intro hs hreset
    by_cases hstop : i = .stop
    · subst hstop
      rw [exec_stop_eq_next.1 h]
    · rw [exec_stopped h hreset hstop, hs]
  · intro hs hstop
    by_cases hreset : i = .reset
    · subst hreset
      rw [exec_reset_eq_next.1 h]
    · rw [exec_stopped h hreset hstop, hs]
  · rintro rfl
    rw [exec_reset_eq_next.1 h]
  · rintro rfl
    rw [exec_stop_eq_next.1 h]

/-- Settles O50: an operation leaves RXQ, so the change is the fetch's: a byte taken by the block or appended by the
bus. -/
theorem receiveStreamInOrder : Obligations.ReceiveStreamInOrder := by
  intro s t h
  obtain ⟨-, ⟨i, u, hf, hu⟩ | hf⟩ := step_eq_next.1 h
  · obtain ⟨-, -, -, hrxq, -⟩ := configurationIsTheHosts i u t hu
    rw [hrxq]
    cases hp : s.probe with
    | none =>
      obtain ⟨-, hb⟩ | ⟨r, -, hb⟩ | ⟨ws, r, -, -, rfl⟩ := (fetch_eq_run hp).1 hf
      · exact (fetchBlock_run_frame hb).2.imp_right .inl
      · exact (fetchBlock_run_frame hb).2.imp_right .inl
      · exact .inl rfl
    | some w =>
      rw [fetch_of_probe hp] at hf
      obtain ⟨-, rfl⟩ := fetchWord_eq_run.1 hf
      exact .inl rfl
  · obtain ⟨-, -, rfl⟩ | ⟨r, -, -, rfl⟩ | ⟨b, r, -, rfl⟩ | ⟨r, -, rfl⟩ :=
      (fetch_eq_settled (probe_eq_none_of_settled hf)).1 hf
    · exact .inl rfl
    · exact .inl rfl
    · exact .inr (.inr ⟨b, rfl⟩)
    · exact .inl rfl

/-! The form of BUF. -/

/-- A write at an index that exists keeps the form of BUF and its bound. -/
theorem State.BufferOk.write {s t : State} (h : s.BufferOk) {i : Nat} {b : Byte} (hi : i < s.params.maxFrame)
    (hbuf : t.buf = s.buf.write i b) (hp : t.params = s.params) : t.BufferOk := by
  obtain ⟨hw, hbound⟩ := h
  rw [State.BufferOk, hbuf, hp]
  refine ⟨Mem.wf_write hw i b, fun c hc => ?_⟩
  obtain hold | ⟨rfl, -⟩ := Mem.mem_write hc
  · exact hbound c hold
  · exact hi

theorem State.BufferOk.of_eq {s t : State} (h : s.BufferOk) (hbuf : t.buf = s.buf) (hp : t.params = s.params) :
    t.BufferOk := by
  rw [State.BufferOk, hbuf, hp]
  exact h

theorem exec_keeps_bufferOk {i : Instr} {s t : State} (hb : s.BufferOk) (h : exec i s = .next t) : t.BufferOk := by
  obtain ⟨hp, -⟩ := configurationIsTheHosts i s t h
  cases effect_of_exec h with
  | started _ hmax => exact hb.write hmax rfl hp
  | grown _ hg =>
    obtain ⟨-, hidx, -⟩ := hg
    exact hb.write hidx rfl hp
  | completed _ hidx _ _ => exact hb.write hidx rfl hp
  | replied hr => exact hb.of_eq hr.buf hp
  | arbitrated _ ha => exact hb.of_eq ha.buf hp
  | granted _ _ ha => exact hb.of_eq ha.buf hp
  | handedOn d fwd _ hr => exact hb.of_eq hr.buf hp
  | resumed _ hr => exact hb.of_eq hr.buf hp
  | _ => exact hb.of_eq rfl hp

/-- Settles O42: the effects that write do so at an index that exists. -/
theorem bufferFormKept : Obligations.BufferFormKept := by
  intro s t hb h
  exact step_keeps (P := State.BufferOk) (fun _ _ _ _ _ hb => hb) (fun i s t hb h => exec_keeps_bufferOk hb h) hb h

/-! The seven invariants. -/

/-- A decoder that waits for a start byte with idx 0 and the direction at receive has the invariants. -/
theorem State.FrameInv.of_waitStart {s : State} (hd : s.dstate = .waitStart) (hidx : s.idx = 0)
    (hde : s.de = false) : s.FrameInv where
  wait_idx _ := hidx
  accum_idx h := by rw [hd] at h; cases h
  accum_need h := by rw [hd] at h; cases h
  complete h := by rw [hd] at h; obtain h | h := h <;> cases h
  invalid_idx h := by rw [hd] at h; cases h
  receiving := hde
  stopped_idle _ := ⟨hd, hidx⟩

/-- The invariants look at the decoder, at MAX_FRAME, at the direction and at run control only. -/
theorem State.FrameInv.of_eq {s t : State} (h : s.FrameInv) (hbuf : t.buf = s.buf) (hd : t.dstate = s.dstate)
    (hidx : t.idx = s.idx) (hp : t.params = s.params) (hs : t.stopped = s.stopped) (hde : t.de = false) :
    t.FrameInv := by
  obtain ⟨h1, h2, h3, h4, h5, -, h7⟩ := h
  rw [← hd] at h1 h2 h3 h4 h5 h7
  rw [← hidx] at h1 h2 h3 h4 h5 h7
  rw [← hbuf] at h2 h3 h4
  rw [← hp] at h2 h4 h5
  rw [← hs] at h7
  exact ⟨h1, h2, h3, h4, h5, hde, h7⟩

theorem State.Replies.de {s t : State} (h : s.Replies t) (hde : s.de = false) : t.de = false := by
  obtain ⟨-, -, -, hd⟩ := h.adds
  exact hd hde

theorem State.Arbitrates.de {k : TokenKind} {s t : State} (h : s.Arbitrates k t) (hde : s.de = false) :
    t.de = false := by
  obtain ⟨-, -, -, hd⟩ := h.adds
  exact hd hde

/-- An appended byte that leaves the frame incomplete: the length byte is below the position it is counted from. -/
theorem State.FrameInv.append {s : State} (hw : s.buf.wf) (h : s.FrameInv) (hg : s.Grows) (b : Byte) :
    (s.append b).FrameInv := by
  obtain ⟨⟨hs, hd⟩, hidx, hneed⟩ := hg
  obtain ⟨hpos, -, hstart⟩ := h.accum_idx hd
  have hkeep : ∀ j, j ≠ s.idx → (s.append b).buf.read j = s.buf.read j := fun j hj => Mem.read_write_ne hw hj b
  exact {
    wait_idx := fun hwait => by rw [State.append_dstate, hd] at hwait; cases hwait
    accum_idx := fun _ => ⟨by rw [State.append_idx]; omega, hidx, (hkeep 0 (by omega)).trans hstart⟩
    accum_need := fun _ h6 => by
      rw [State.append_idx] at h6 ⊢
      rw [hkeep 4 (by omega)]
      rw [State.need_eq] at hneed
      omega
    complete := fun hc => by rw [State.append_dstate, hd] at hc; obtain hc | hc := hc <;> cases hc
    invalid_idx := fun hi => by rw [State.append_dstate, hd] at hi; cases hi
    receiving := h.receiving
    stopped_idle := fun hst => by rw [State.append_stopped, hs] at hst; cases hst }

/-- The position and the length byte of a frame whose last byte is appended (R80): the frame was incomplete before,
so it has exactly `length + 6` bytes now. -/
theorem State.FrameInv.complete_idx {s : State} (hw : s.buf.wf) (h : s.FrameInv) (hd : s.dstate = .accum)
    (h6 : 6 ≤ s.idx + 1) (hneed : s.need ≤ s.idx + 1) (b : Byte) :
    s.idx + 1 = zext ((s.append b).buf.read 4) + 6 := by
  have hlen : (s.append b).buf.read 4 = s.buf.read 4 := Mem.read_write_ne hw (by omega) b
  have hbefore := h.accum_need hd
  rw [hlen]
  rw [State.need_eq] at hneed
  omega

/-- A judged frame is accepted or rejected (R76). -/
theorem State.judged_dstate (s : State) : s.judged.dstate = .frameReady ∨ s.judged.dstate = .chkFailed := by
  rw [State.judged, State.enter_dstate]
  split
  · exact .inl rfl
  · exact .inr rfl

theorem State.FrameInv.judged {s : State} (hw : s.buf.wf) (h : s.FrameInv) (hr : s.Receiving .accum)
    (hidx : s.idx < s.params.maxFrame) (h6 : 6 ≤ s.idx + 1) (hneed : s.need ≤ s.idx + 1) (b : Byte) :
    (s.append b).judged.FrameInv := by
  obtain ⟨hs, hd⟩ := hr
  obtain ⟨-, -, h0⟩ := h.accum_idx hd
  have hstart : (s.append b).buf.read 0 = 0x5C :=
    (Mem.read_write_ne hw (by omega) b).trans h0
  have hcomplete := h.complete_idx hw hd h6 hneed b
  have hnot : ∀ d : DecoderState, d ≠ .frameReady → d ≠ .chkFailed → (s.append b).judged.dstate ≠ d := by
    intro d hready hfailed
    obtain ht | ht := State.judged_dstate (s.append b)
    · rw [ht]; exact hready.symm
    · rw [ht]; exact hfailed.symm
  exact {
    wait_idx := fun hc => absurd hc (hnot _ nofun nofun)
    accum_idx := fun hc => absurd hc (hnot _ nofun nofun)
    accum_need := fun hc => absurd hc (hnot _ nofun nofun)
    complete := fun _ => ⟨hcomplete, h6, hidx, hstart⟩
    invalid_idx := fun hc => absurd hc (hnot _ nofun nofun)
    receiving := h.receiving
    stopped_idle := fun hst => absurd (hs.symm.trans hst) Bool.false_ne_true }

theorem State.FrameInv.started {s : State} (hw : s.buf.wf) (h : s.FrameInv) (hs : s.stopped = false)
    (hmax : 0 < s.params.maxFrame) :
    { s with buf := s.buf.write 0 0x5C, idx := 1, dstate := .accum }.FrameInv where
  wait_idx hc := by cases hc
  accum_idx _ := ⟨Nat.le_refl 1, hmax, Mem.read_write_same hw 0 0x5C⟩
  accum_need _ h6 := absurd (show 6 ≤ 1 from h6) (by decide)
  complete hc := by obtain hc | hc := hc <;> cases hc
  invalid_idx hc := by cases hc
  receiving := h.receiving
  stopped_idle hst := absurd (hs.symm.trans hst) Bool.false_ne_true

theorem State.FrameInv.overflowed {s : State} (h : s.FrameInv) (hr : s.Receiving .accum)
    (hfull : s.params.maxFrame ≤ s.idx) : (s.enter .invalid).FrameInv := by
  obtain ⟨hs, hd⟩ := hr
  obtain ⟨-, hle, -⟩ := h.accum_idx hd
  exact {
    wait_idx := nofun
    accum_idx := nofun
    accum_need := nofun
    complete := fun hc => by obtain hc | hc := hc <;> cases hc
    invalid_idx := fun _ => Nat.le_antisymm hle hfull
    receiving := h.receiving
    stopped_idle := fun hst => absurd (hs.symm.trans hst) Bool.false_ne_true }

theorem exec_keeps_frameInv {i : Instr} {s t : State} (hw : s.buf.wf) (hinv : s.FrameInv)
    (h : exec i s = .next t) : t.FrameInv := by
  have hde := hinv.receiving
  cases effect_of_exec h with
  | replied hr => exact hinv.of_eq hr.buf (by rw [hr.eq]) (by rw [hr.eq]) (by rw [hr.eq]) hr.stopped (hr.de hde)
  | arbitrated _ ha => exact hinv.of_eq ha.buf (by rw [ha.eq]) (by rw [ha.eq]) (by rw [ha.eq]) ha.stopped (ha.de hde)
  | started hr hmax => exact hinv.started hw hr.1 hmax
  | overflowed hr hfull => exact hinv.overflowed hr hfull
  | grown _ hg => exact hinv.append hw hg _
  | completed hr hidx h6 hneed => exact hinv.judged hw hr hidx h6 hneed _
  | granted _ _ ha => exact .of_waitStart rfl rfl (ha.de hde)
  | handedOn d fwd _ hr => exact .of_waitStart rfl rfl (hr.de hde)
  | resumed _ hr => exact .of_waitStart rfl rfl (hr.de hde)
  | reset => exact .of_waitStart rfl rfl rfl
  | stop => exact .of_waitStart rfl rfl hde
  | _ => exact hinv.of_eq rfl rfl rfl rfl rfl hde

/-- Settles O40: every effect keeps the invariants, where BUF is in its form; the form is kept too
(`exec_keeps_bufferOk`). -/
theorem frameInvariantKept : Obligations.FrameInvariantKept := by
  intro s t hb hinv h
  have hboth := step_keeps (P := fun s => s.BufferOk ∧ s.FrameInv)
    (fun _ _ _ _ _ ⟨hb, hinv⟩ => ⟨hb, hinv.of_eq rfl rfl rfl rfl rfl hinv.receiving⟩)
    (fun i s t ⟨hb, hinv⟩ h => ⟨exec_keeps_bufferOk hb h, exec_keeps_frameInv hb.1 hinv h⟩) ⟨hb, hinv⟩ h
  exact hboth.2

/-- Settles O41: after reset the decoder waits for a start byte with idx 0. -/
theorem frameInvariantAtReset : Obligations.FrameInvariantAtReset := .of_waitStart rfl rfl rfl

/-- Settles O43: the values stand in `State.reset`, whose empty buffer is in its form. -/
theorem resetValues : Obligations.ResetValues :=
  ⟨rfl, rfl, rfl, rfl, rfl, rfl, rfl, rfl, Mem.wf_nil, fun _ hc => nomatch hc⟩

/-- Settles O15: by the invariant the frame was incomplete before its last byte. -/
theorem frameEndsAtItsLength : Obligations.FrameEndsAtItsLength := by
  intro s t b hb hinv h
  obtain ⟨⟨⟨-, hd⟩, -, h6, hneed⟩, rfl⟩ := exec_accComplete_eq_next.1 h
  exact hinv.complete_idx hb.1 hd h6 hneed b

end Sys2Proof.Machine
end

section
/-! The operations one by one: reception (spec/40), the checksum validator (spec/41), the acknowledgment policy
(spec/42), the token arbiter (spec/43), dispatch and the host's operations (spec/44). -/

namespace Sys2Proof.Machine

/-! Reception. -/

/-- Settles O11: the law of ACC.OVERSIZE names its only next state. -/
theorem oversizeRaisesInvalid : Obligations.OversizeRaisesInvalid := by
  intro s b hs hd hfull
  exact exec_accOversize_eq_next.2 ⟨⟨⟨hs, hd⟩, hfull⟩, rfl⟩

/-- Settles O13: where the condition of R75 holds the operation appends the byte. -/
theorem partialAppendsByte : Obligations.PartialAppendsByte := by
  intro s b hs hd hw hmax h6 hneed
  have hrun : exec (.accPartial b) s = .next (s.append b) :=
    exec_accPartial_eq_next.2 ⟨⟨⟨hs, hd⟩, hmax, h6, hneed⟩, rfl⟩
  exact ⟨s.append b, hrun, State.append_spec hd hw b⟩

/-- The verdict function accepts exactly under the condition of R90. -/
theorem verdict_eq_true_iff {c k : Byte} : verdict c k = true ↔ c = k ∨ (c = 0x5C ∧ k = 0xC5) := by
  simp [verdict]

theorem Mem.chkAccept_eq_true_iff {m : Mem} : m.chkAccept = true ↔ m.Accepts := verdict_eq_true_iff

/-- The two judgements of a frame by its checksum (R76). -/
theorem State.judged_of_accept {s : State} (h : s.buf.chkAccept = true) : s.judged = s.enter .frameReady := by
  rw [State.judged, if_pos h]

theorem State.judged_of_reject {s : State} (h : s.buf.chkAccept = false) : s.judged = s.enter .chkFailed := by
  rw [State.judged, if_neg (Bool.eq_false_iff.1 h)]

/-- Settles O14: the verdict on the buffer after the append selects the judgement. -/
theorem completeJudgesFrame : Obligations.CompleteJudgesFrame := by
  intro s b hs hd hw hmax h6 hneed
  have hrun : exec (.accComplete b) s = .next (s.append b).judged :=
    exec_accComplete_eq_next.2 ⟨⟨⟨hs, hd⟩, hmax, h6, hneed⟩, rfl⟩
  refine ⟨_, hrun, Mem.read_write hw s.idx b, fun hacc => ?_, fun hrej => ?_⟩
  · exact State.judged_of_accept (Mem.chkAccept_eq_true_iff.2 hacc)
  · exact State.judged_of_reject (Bool.eq_false_iff.2 fun hacc => hrej (Mem.chkAccept_eq_true_iff.1 hacc))

/-- Settles O16: each of the six operations requires a receiving state that is not stopped. -/
theorem noReceptionWhenTerminal : Obligations.NoReceptionWhenTerminal := by
  intro s b h
  have hnot : ∀ d : DecoderState, d = .waitStart ∨ d = .accum → ¬s.Receiving d := by
    rintro d hd ⟨hs, rfl⟩
    obtain hst | hrec := h
    · exact Bool.false_ne_true (hs.symm.trans hst)
    · exact hrec hd
  have hwait := hnot .waitStart (.inl rfl)
  have haccum := hnot .accum (.inr rfl)
  exact ⟨requires_of_not (fun h => hwait h.1) _, requires_of_not hwait _, requires_of_not (fun h => haccum h.1) _,
    requires_of_not (fun h => haccum h.1) _, requires_of_not (fun h => haccum h.1) _,
    requires_of_not (fun h => haccum h.1) _⟩

/-! The checksum validator. -/

/-- Settles O17: the slice of R85 is the map of the reads over its indices. -/
theorem computeAnswersXor : Obligations.ComputeAnswersXor := by
  intro s hidx hmax
  have hlen : s.len + 5 < s.params.maxFrame := by rw [State.len_eq]; omega
  rw [exec_chkCompute_eq_next.2 ⟨hidx, hlen, rfl⟩, ← Mem.slice_eq_map_range]
  rfl

/-- Settles O18: the verdict function on the operands of each row. -/
theorem verdictsOfCheck : Obligations.VerdictsOfCheck := by
  intro s
  refine ⟨fun v => ?_, rfl, fun c k hne hquirk => ?_⟩
  · have hacc : verdict v v = true := verdict_eq_true_iff.2 (.inl rfl)
    rw [exec_chkMatch_eq_next.2 rfl, hacc]
    rfl
  · have hrej : verdict c k = false := Bool.eq_false_iff.2 fun h => (verdict_eq_true_iff.1 h).elim hne hquirk
    rw [exec_chkFail_eq_next.2 ⟨⟨hne, hquirk⟩, rfl⟩, hrej]
    rfl

/-- A pair is accepted exactly when its exclusive OR is 0, or 0x99 with 0xC5 stored: `0x5C ^ 0xC5 = 0x99` (R90). -/
theorem verdict_iff_xor {c k : Byte} :
    verdict c k = true ↔ c ^^^ k = 0 ∨ (k = 0xC5 ∧ c ^^^ k = 0x99) := by
  have hquirk : c = 0x5C ∧ k = 0xC5 ↔ k = 0xC5 ∧ c ^^^ k = 0x99 := by
    rw [and_comm]
    refine and_congr_right fun hk => ?_
    subst hk
    exact (BitVec.xor_left_inj (x := c) (y := 0x5C#8) 0xC5#8).symm
  rw [verdict_eq_true_iff]
  exact or_congr BitVec.xor_eq_zero_iff.symm hquirk

/-- Settles O19: the exclusive OR of the whole range is `calc ^ stored`. -/
theorem verdictByWholeXor : Obligations.VerdictByWholeXor := by
  intro m
  have hwhole : xorAll (m.slice 1 (zext (m.read 4) + 5)) = m.computed ^^^ m.stored := m.xorAll_whole
  rw [hwhole, Mem.chkAccept, verdict_iff_xor]
  rfl

/-- A single bit of a byte is neither 0x00 nor 0x99, which has four. -/
theorem one_shiftLeft_ne {n : Nat} (hn : n < 8) : (1#8 <<< n) ≠ 0 ∧ (1#8 <<< n) ≠ 0x99 := by
  have hall : ∀ n : Fin 8, (1#8 <<< n.val) ≠ 0 ∧ (1#8 <<< n.val) ≠ 0x99 := by decide
  exact hall ⟨n, hn⟩

/-- Settles O20: by O19 an accepted range has the exclusive OR 0x00 or 0x99, and the flipped bit is added to it. From
0x00 that gives the bit itself, from 0x99 neither value again. -/
theorem singleBitFlipIsRejected : Obligations.SingleBitFlipIsRejected := by
  intro m j n hw hacc hj hjl hj4 hn
  obtain ⟨hbit0, hbit99⟩ := one_shiftLeft_ne hn
  have hlen : (m.write j (m.read j ^^^ (1#8 <<< n))).read 4 = m.read 4 := Mem.read_write_ne hw (Ne.symm hj4) _
  have hflip := Mem.xorAll_slice_write hw (1#8 <<< n) hj (show j < 1 + (zext (m.read 4) + 5) by omega)
  refine Bool.eq_false_iff.2 fun hacc' => ?_
  rw [verdictByWholeXor m] at hacc
  rw [verdictByWholeXor, hlen, hflip] at hacc'
  obtain h0 | ⟨-, h99⟩ := hacc
  · have hsum : (0 : Byte) ^^^ (1#8 <<< n) = 1#8 <<< n := BitVec.zero_xor
    rw [h0, hsum] at hacc'
    exact hacc'.elim hbit0 fun h => hbit99 h.2
  · rw [h99] at hacc'
    obtain hzero | ⟨-, hsame⟩ := hacc'
    · exact hbit99 (BitVec.xor_eq_zero_iff.1 hzero).symm
    · exact hbit0 ((BitVec.xor_right_inj (y := 0#8) 0x99#8).1 hsame)

/-! The acknowledgment policy and the transmit sequence. -/

/-- Settles O21: the Boolean function's connectives, read as propositions. -/
theorem addressFilterRule : Obligations.AddressFilterRule := by
  intro cfg a
  simp [shouldAck, or_assoc]

/-- For an address that is none of the three identities only `ackAll` counts (R96). -/
theorem shouldAck_other {cfg : Cfg} {a : Byte} (h16 : a ≠ 0x16) (h19 : a ≠ 0x19) (h20 : a ≠ 0x20) :
    shouldAck cfg a = (cfg.sendAcknowledge && cfg.ackAll) := by
  have e16 : (a == Config.addrSms40) = false := beq_eq_false_iff_ne.2 h16
  have e19 : (a == Config.addrRmu40) = false := beq_eq_false_iff_ne.2 h19
  have e20 : (a == Config.addrModbus40) = false := beq_eq_false_iff_ne.2 h20
  rw [shouldAck, e16, e19, e20]
  simp

/-- Settles O22: the filter at each identity, where the comparisons with the other two fail. -/
theorem addressEntriesAnswerFilter : Obligations.AddressEntriesAnswerFilter := by
  intro s
  refine ⟨?_, ?_, ?_, fun a h16 h19 h20 => ?_⟩
  · rw [exec_addrSms40_eq_next.2 rfl]; simp [State.answering, shouldAck]
  · rw [exec_addrRmu40_eq_next.2 rfl]; simp [State.answering, shouldAck]
  · rw [exec_addrModbus40_eq_next.2 rfl]; simp [State.answering, shouldAck]
  · rw [exec_addrOther_eq_next.2 ⟨⟨h16, h19, h20⟩, rfl⟩, shouldAck_other h16 h19 h20]; rfl

/-- In a terminal state ACK.DECIDE answers the decision of the table. -/
theorem exec_ackDecide {s : State} (hmax : 4 < s.params.maxFrame) (hd : ¬s.Receives) :
    exec .ackDecide s = .next { s with answer := some (.decision s.ackDecision) } :=
  exec_ackDecide_eq_next.2 ⟨⟨fun h => hd (.inl h), fun h => hd (.inr h)⟩, hmax, rfl⟩

/-- Settles O23: the rows of the decision table by the decoder state. -/
theorem decisionTable : Obligations.DecisionTable := by
  intro s hmax
  have hrun : ∀ d : DecoderState, s.dstate = d → d ≠ .waitStart → d ≠ .accum →
      exec .ackDecide s = .next { s with answer := some (.decision s.ackDecision) } := by
    rintro d rfl hwait haccum
    exact exec_ackDecide hmax fun h => h.elim hwait haccum
  refine ⟨fun hd => ?_, fun hd htok => ?_, fun htok => ?_, fun hd => ?_⟩
  · rw [hrun _ hd nofun nofun, State.ackDecision, hd]
    rfl
  · rw [hrun _ hd nofun nofun, State.ackDecision, hd, State.isToken_eq_false_iff.2 htok]
    rfl
  · have hd : s.dstate = .frameReady := htok.elim fun _ hk => hk.1
    rw [hrun _ hd nofun nofun, State.ackDecision, hd, State.isToken_eq_true_iff.2 htok]
    rfl
  · rw [hrun _ hd nofun nofun, State.ackDecision, hd]

/-- A transmit sequence with the direction at receive: TXS ends empty, the trace gains the bracket (R100). -/
theorem State.sent_eq {s : State} (hde : s.de = false) (d : Datagram) :
    s.sent d = { s with txs := [], out := s.out ++ bracket s.params.tSettle d } := by
  have hall : s.sent d = { s with de := false, txs := [], out := (s.sent d).out } := rfl
  rw [hall, State.sent_out_bracket, ← hde]

/-- Settles O24: each of the three is one transmit sequence. -/
theorem transmitBracket : Obligations.TransmitBracket := by
  intro s hde
  refine ⟨?_, ?_, fun d hd => ?_⟩
  · rw [exec_ackSend_eq_next.2 ⟨hde, rfl⟩, State.sent_eq hde]
  · rw [exec_nakSend_eq_next.2 ⟨hde, rfl⟩, State.sent_eq hde]
  · rw [exec_txseq_eq_next.2 ⟨hde, hd, rfl⟩, State.sent_eq hde]

/-- Settles O25: either cause denies the condition of R100. -/
theorem transmitNeedsBytesAndReceive : Obligations.TransmitNeedsBytesAndReceive := by
  intro s d h
  refine requires_of_not (fun hc => ?_) _
  obtain hde | hd := h
  · exact Bool.false_ne_true (hc.1.symm.trans hde)
  · exact hc.2 hd

/-! The token recognizer and the token arbiter. -/

/-- Settles O26: the buffer holds a frame with no payload and the kind's command, so `is_token()` rests on the
decoder state and the address. -/
theorem tokenRecognized : Obligations.TokenRecognized := by
  intro s h a k kind hmax hframe
  obtain ⟨-, hm⟩ := State.holdsFrame_of_frameBytes (p := []) hframe
  have hkind : s.tokenKind = if s.dstate = .frameReady ∧ a = s.cfg.ownAddress then some kind else none := by
    split
    · next hc =>
      exact State.presents_iff.1 ((State.presents_of_holdsFrame hm (by simp) hc.1).2 ⟨hc.2, rfl, rfl⟩)
    · next hc =>
      refine Option.eq_none_iff_forall_not_mem.2 fun k' hk' => hc ?_
      obtain ⟨hd, haddr, -⟩ := tokenKind_eq_some.1 hk'
      exact ⟨hd, hm.addr.symm.trans haddr⟩
  rw [exec_tokMatch_eq_next.2 ⟨hframe, hmax, rfl⟩, hkind]
  rfl

theorem State.Presents.granted {s : State} {kind : TokenKind} (hk : s.Presents kind) (hs : s.stopped = false) :
    s.Granted kind := ⟨hs, State.presents_iff.1 hk⟩

/-- The claim of a datagram touches the trace and its own queue only. -/
theorem State.claimed_eq (s : State) (kind : TokenKind) (d : Datagram) (q : List Datagram) :
    s.claimed kind d q = { s with
      rdq := (s.claimed kind d q).rdq, wrq := (s.claimed kind d q).wrq, out := s.out ++ [.claim kind d] } := by
  cases kind <;> rfl

/-- The ACK under the filter, with the direction at receive (R97, R114). -/
theorem ackAdmitted_eq {s : State} (hde : s.de = false) :
    ackAdmitted s = .next { s with
      txs := if shouldAck s.cfg (s.buf.read 2) then [] else s.txs,
      out := s.out ++ (if shouldAck s.cfg (s.buf.read 2) then bracket s.params.tSettle [0x06] else []) } := by
  rw [ackAdmitted_eq_next, State.acks_eq]
  cases shouldAck s.cfg (s.buf.read 2)
  · exact .inr ⟨rfl, by simp⟩
  · exact .inl ⟨rfl, hde, by rw [State.sent_eq hde]; rfl⟩

/-- What the arbiter does with the direction at receive, in one form for its three answers (R112 to R116). -/
theorem handleToken_eq {kind : TokenKind} {s : State} (hde : s.de = false) :
    ∃ t, handleToken kind s = .next t ∧ t.queue kind = (s.queue kind).drop 1 ∧
      (∀ k, k ≠ kind → t.queue k = s.queue k) ∧
      t = { s with
        rdq := t.rdq, wrq := t.wrq,
        txs := if arbiterSends (shouldAck s.cfg (s.buf.read 2)) (s.queue kind) then [] else s.txs,
        out := s.out ++ arbiterEvents s.params.tSettle kind (shouldAck s.cfg (s.buf.read 2)) (s.queue kind) } := by
  cases hq : s.queue kind with
  | nil =>
    refine ⟨_, handleToken_eq_next.2 (.inl ⟨hq, ackAdmitted_eq hde⟩), ?_, fun k _ => ?_, rfl⟩
    · exact hq
    · cases k <;> rfl
  | cons d q =>
    have hde' : (s.claimed kind d q).de = false := by rw [State.claimed_de]; exact hde
    by_cases hd : d = []
    · subst hd
      refine ⟨_, handleToken_eq_next.2 (.inr (.inr ⟨q, hq, ackAdmitted_eq hde'⟩)), ?_, fun k hk => ?_, ?_⟩
      · exact State.queue_claimed s kind [] q
      · exact State.queue_claimed_ne s hk [] q
      · rw [State.claimed_eq s kind [] q]
        simp [arbiterSends, arbiterEvents]
    · refine ⟨_, handleToken_eq_next.2 (.inr (.inl ⟨d, q, hq, hd, hde, rfl⟩)), ?_, fun k hk => ?_, ?_⟩
      · rw [State.queue_sent, State.queue_claimed]; rfl
      · rw [State.queue_sent, State.queue_claimed_ne s hk]
      · rw [State.sent_eq hde', State.claimed_eq s kind d q]
        simp [arbiterSends, arbiterEvents, hd]

/-- Settles O27: the claim and one transmit sequence. -/
theorem relaySendsClaimedDatagram : Obligations.RelaySendsClaimedDatagram := by
  intro s kind d q hs hk hde hmax hq hd
  have hde' : (s.claimed kind d q).de = false := by rw [State.claimed_de]; exact hde
  have hrun : exec (.tokRelay kind d) s = .next ((s.claimed kind d q).sent d) :=
    exec_tokRelay_eq_next.2 ⟨⟨hk.granted hs, by rw [hq]; rfl, hd⟩, hmax, hde, by rw [hq]; rfl⟩
  refine ⟨_, hrun, ?_, fun k hne => ?_, ?_⟩
  · rw [State.queue_sent, State.queue_claimed]
  · rw [State.queue_sent, State.queue_claimed_ne s hne]
  · rw [State.sent_eq hde', State.claimed_eq s kind d q]
    simp

/-- Settles O28: the fallback is the ACK under the filter. -/
theorem fallbackAcknowledges : Obligations.FallbackAcknowledges := by
  intro s kind hs hk hde hmax hq
  have hrun : ∀ t, ackAdmitted s = .next t → exec (.tokFallback kind) s = .next t := fun t hack =>
    exec_tokFallback_eq_next.2 ⟨⟨hk.granted hs, hq⟩, hmax, hack⟩
  refine ⟨fun hack => ?_, fun hack => ?_⟩
  · rw [hrun _ (ackAdmitted_eq hde), hack]; rfl
  · exact hrun s (ackAdmitted_eq_next.2 (.inr ⟨hack, rfl⟩))

/-- Settles O29: the claim of the empty datagram, then the ACK under the filter. -/
theorem emptyDatagramFallsBack : Obligations.EmptyDatagramFallsBack := by
  intro s kind q hs hk hde hmax hq
  have hde' : (s.claimed kind [] q).de = false := by rw [State.claimed_de]; exact hde
  have hrun := exec_tokEmpty_eq_next.2
    ⟨⟨hk.granted hs, by rw [hq]; rfl⟩, hmax, by rw [hq]; exact ackAdmitted_eq hde'⟩
  refine ⟨_, hrun, ?_, fun k hne => ?_, ?_⟩
  · exact State.queue_claimed s kind [] q
  · exact State.queue_claimed_ne s hne [] q
  · rw [List.tail_cons, State.claimed_eq s kind [] q]
    simp

/-! Dispatch. -/

/-- Settles O30: the arbiter runs on the state with TOKEN emitted, and the return follows. -/
theorem tokenIsAnswered : Obligations.TokenIsAnswered := by
  intro s kind hs hk hde hmax
  obtain ⟨u, hu, hqueue, hother, heq⟩ := handleToken_eq (kind := kind) (s := s.emit (.token kind)) hde
  have hrun : exec .dispatchToken s = .next u.resume :=
    exec_dispatchToken_eq_next.2 ⟨kind, State.presents_iff.1 hk, hs, dispatchGrant_eq_next.2 ⟨hmax, u, hu, rfl⟩⟩
  refine ⟨u.resume, hrun, ?_, fun k hne => ?_, ?_⟩
  · rw [State.queue_resume, hqueue, State.queue_emit]
  · rw [State.queue_resume, hother k hne, State.queue_emit]
  · rw [State.resume, heq]
    simp

/-- The forwarding scope (R131). -/
theorem fwdScope_eq_true_iff {cfg : Cfg} {a : Byte} :
    fwdScope cfg a = true ↔ cfg.forwardAll = true ∨ a = cfg.ownAddress := by
  simp [fwdScope]

/-- Dispatching a data frame with the direction at receive: the ACK under the filter, the record, the return. -/
theorem dispatchFrame_eq {s : State} (hde : s.de = false) (hmax : s.len + 5 < s.params.maxFrame) :
    dispatchFrame s = .next { s with
      idx := 0, dstate := .waitStart, fout := s.fout ++ [⟨s.frameOutBytes, fwdScope s.cfg s.addr⟩],
      txs := if shouldAck s.cfg (s.buf.read 2) then [] else s.txs,
      out := s.out ++ ((if shouldAck s.cfg (s.buf.read 2) then bracket s.params.tSettle [0x06] else []) ++
        [.frameOut s.frameOutBytes (fwdScope s.cfg s.addr)]) } := by
  rw [dispatchFrame, reaches_of hmax, ackAdmitted_eq hde, andThen_next, ← List.append_assoc]
  rfl

/-- Settles O31: the record's bytes are those of FWD_FORMAT. -/
theorem dataFrameIsHandedOn : Obligations.DataFrameIsHandedOn := by
  intro s hs hd htok hde hmax
  have hlen : s.len + 5 < s.params.maxFrame := by rw [State.len_eq]; omega
  refine ⟨s.frameOutBytes, fwdScope s.cfg s.addr, fwdScope_eq_true_iff, fun hf => ?_, fun hf => ?_, ?_⟩
  · rw [State.frameOutBytes, State.frameOutLength, hf]; rfl
  · rw [State.frameOutBytes, State.frameOutLength, hf]; rfl
  · exact exec_dispatchData_eq_next.2 ⟨⟨hs, hd, State.isToken_eq_false_iff.2 htok⟩, dispatchFrame_eq hde hlen⟩

/-- Settles O32: the NAK under the filter, then the return. -/
theorem checksumFailureIsAnswered : Obligations.ChecksumFailureIsAnswered := by
  intro s hs hd hde hmax
  refine ⟨fun hack => ?_, fun hack => ?_⟩
  · rw [exec_dispatchChkfail_eq_next.2 ⟨⟨hs, hd⟩, hmax, .inl ⟨hack, hde, rfl⟩⟩, State.sent_eq hde]
    rfl
  · exact exec_dispatchChkfail_eq_next.2 ⟨⟨hs, hd⟩, hmax, .inr ⟨hack, rfl⟩⟩

/-- Settles O33: the return and nothing before it. -/
theorem invalidIsDropped : Obligations.InvalidIsDropped := by
  intro s hs hd
  exact exec_dispatchInvalid_eq_next.2 ⟨⟨hs, hd⟩, rfl⟩

/-- A token frame that the buffer holds, addressed to the gateway, presents its token. -/
theorem State.presents_of_frameBytes {s : State} {h a k : Byte} {kind : TokenKind} (hd : s.dstate = .frameReady)
    (ha : a = s.cfg.ownAddress) (hframe : s.frameBytes = encode (.tokMatch h a kind k)) : s.Presents kind :=
  (State.presents_of_holdsFrame (State.holdsFrame_of_frameBytes (p := []) hframe).2 (by simp) hd).2 ⟨ha, rfl, rfl⟩

/-- DISPATCH.TOKEN where a token of the kind is presented. -/
theorem exec_dispatchToken_of_presents {s : State} {kind : TokenKind} (hs : s.stopped = false)
    (hk : s.Presents kind) : exec .dispatchToken s = dispatchGrant kind s := by
  simp only [exec, execDispatchToken, State.presents_iff.1 hk]
  exact requires_of hs _

/-- Settles O34: the frame in the buffer decides whether a token is presented, and the class then does what its
DISPATCH does, whose next state is that of O30 or O31. -/
theorem frameClassesAreDispatched : Obligations.FrameClassesAreDispatched := by
  intro s hs hd hde hmax
  refine ⟨fun h a k ha hframe => ?_, fun h a k ha hframe => ?_, fun h a c p k hfit hidx hframe => ?_⟩
  · have hk : s.Presents .read := State.presents_of_frameBytes (kind := .read) hd ha hframe
    have hrun : exec (.frameRtoken h a k) s = exec .dispatchToken s :=
      (requires_of ⟨hs, ⟨hd, hframe⟩, ha⟩ _).trans (exec_dispatchToken_of_presents hs hk).symm
    obtain ⟨t, ht, -⟩ := tokenIsAnswered s .read hs hk hde hmax
    exact ⟨hk, hrun, t, hrun.trans ht⟩
  · have hk : s.Presents .write := State.presents_of_frameBytes (kind := .write) hd ha hframe
    have hrun : exec (.frameWtoken h a k) s = exec .dispatchToken s :=
      (requires_of ⟨hs, ⟨hd, hframe⟩, ha⟩ _).trans (exec_dispatchToken_of_presents hs hk).symm
    obtain ⟨t, ht, -⟩ := tokenIsAnswered s .write hs hk hde hmax
    exact ⟨hk, hrun, t, hrun.trans ht⟩
  · obtain ⟨own, hown, hp, hno⟩ := hfit
    cases hown
    obtain ⟨hsize, hm⟩ := State.holdsFrame_of_frameBytes hframe
    have htok : ¬∃ kind, s.Presents kind := by
      rintro ⟨kind, hk⟩
      obtain ⟨ha, hnil, hc⟩ := (State.presents_of_holdsFrame hm hp hd).1 hk
      refine hno ⟨ha, by rw [hnil]; rfl, ?_⟩
      cases kind
      · exact .inl hc
      · exact .inr hc
    have hnot := State.isToken_eq_false_iff.2 htok
    have hrun : exec (.frameData h a c p k) s = exec .dispatchData s :=
      (requires_of ⟨hs, ⟨hd, hframe⟩, hnot⟩ _).trans (requires_of ⟨hs, hd, hnot⟩ _).symm
    have hneed : zext (s.buf.read 4) + 6 ≤ s.params.maxFrame := by rw [hm.zext_length hp]; omega
    obtain ⟨d, fwd, -, -, -, ht⟩ := dataFrameIsHandedOn s hs hd htok hde hneed
    exact ⟨htok, hrun, _, hrun.trans ht⟩

/-! The host's operations. -/

/-- The field written holds the value, as a byte. -/
theorem fieldValue_writeField_same {f : CfgField} {v : Byte} (h : f = .ownAddress ∨ v = 0 ∨ v = 1) (cfg : Cfg) :
    fieldValue (writeField cfg v f) f = v := by
  obtain rfl | rfl | rfl := h
  · rfl
  · cases f <;> rfl
  · cases f <;> rfl

/-- Only the field written changes. -/
theorem fieldValue_writeField (cfg : Cfg) (v : Byte) (f g : CfgField) :
    fieldValue (writeField cfg v f) g = if g = f then fieldValue (writeField cfg v f) f else fieldValue cfg g := by
  cases f <;> cases g <;> rfl

theorem CfgField.admits_iff {f : CfgField} {v : Byte} :
    f.admits v = true ↔ f = .ownAddress ∨ v = 0 ∨ v = 1 := by
  cases f <;> simp [CfgField.admits]

/-- Settles O35: a value of the field's width is what `admits` admits. -/
theorem configurationWrite : Obligations.ConfigurationWrite := by
  intro s f v
  refine ⟨fun hv => ?_, fun hf h0 h1 => ?_⟩
  · exact ⟨_, exec_cfgWrite_eq_next.2 ⟨CfgField.admits_iff.2 hv, rfl⟩, rfl, fieldValue_writeField_same hv s.cfg,
      fun g hg => (fieldValue_writeField s.cfg v f g).trans (if_neg hg)⟩
  · have hno : ¬f.admits v = true := fun h => (CfgField.admits_iff.1 h).elim hf fun h => h.elim h0 h1
    exact if_neg hno

/-- Settles O37: the law of RESET names its only next state. -/
theorem resetEffect : Obligations.ResetEffect := fun _ => exec_reset_eq_next.2 rfl

/-- Settles O38: the law of STOP names its only next state. -/
theorem stopDiscardsFrame : Obligations.StopDiscardsFrame := fun _ => exec_stop_eq_next.2 rfl

end Sys2Proof.Machine
end

section
/-! The output trace: each operation of the block and of the host keeps it in its grammar, and what the grammar says
of the transmissions (spec/42 R101, spec/43 R117). -/

namespace Sys2Proof.Machine

/-- While the block runs, the decoder state names the outcome still to be dispatched. -/
theorem State.traceOk_iff_of_running {s : State} (hs : s.stopped = false) :
    s.TraceOk ↔ Trace s.params.tSettle s.dstate.pending s.out := by
  rw [State.TraceOk, hs]; rfl

/-- In the grammar with some outcome pending or none. -/
theorem State.TraceOk.trace {s : State} (h : s.TraceOk) : ∃ p, Trace s.params.tSettle p s.out := by
  unfold State.TraceOk at h
  split at h
  · exact h
  · exact ⟨_, h⟩

/-- The grammar looks at run control, the decoder state, T_SETTLE and the trace only. -/
theorem State.TraceOk.of_eq {s t : State} (h : s.TraceOk) (hs : t.stopped = s.stopped) (hd : t.dstate = s.dstate)
    (hp : t.params = s.params) (ho : t.out = s.out) : t.TraceOk := by
  rw [State.TraceOk, hs, hd, hp, ho]
  exact h

/-! Reception. -/

/-- What a received byte does: the frame goes on with no event, or a terminal outcome is entered. -/
theorem exec_received {s t : State} {b : Byte} {i : Instr} (hr : s.Receives) (hdec : decode s.rxSpace [b] = .ok i)
    (h : exec i s = .next t) :
    t.stopped = s.stopped ∧ t.params = s.params ∧
      ((t.Receives ∧ t.out = s.out) ∨ ∃ d, t.dstate = d ∧ t.out = s.out ++ [.outcome d.outcomeCode] ∧
        (d = .frameReady ∨ d = .chkFailed ∨ d = .invalid)) := by
  obtain hd | hd := hr
  · rw [State.rxSpace, hd] at hdec
    cases hdec
    split at h
    · obtain ⟨-, -, rfl⟩ := exec_syncStart_eq_next.1 h
      exact ⟨rfl, rfl, .inl ⟨.inr rfl, rfl⟩⟩
    · obtain ⟨-, rfl⟩ := exec_syncSkip_eq_next.1 h
      exact ⟨rfl, rfl, .inl ⟨.inl hd, rfl⟩⟩
  · rw [State.rxSpace, hd] at hdec
    cases hdec
    obtain ⟨-, heq⟩ | ⟨-, -, heq⟩ | ⟨-, -, -, heq⟩ | ⟨-, -, -, heq⟩ :=
      decodeAccum_cases s.params.maxFrame s.idx s.need b
    all_goals rw [heq] at h
    · obtain ⟨-, rfl⟩ := exec_accOversize_eq_next.1 h
      exact ⟨rfl, rfl, .inr ⟨_, rfl, rfl, .inr (.inr rfl)⟩⟩
    · obtain ⟨-, rfl⟩ := exec_accShort_eq_next.1 h
      exact ⟨rfl, rfl, .inl ⟨.inr hd, rfl⟩⟩
    · obtain ⟨-, rfl⟩ := exec_accPartial_eq_next.1 h
      exact ⟨rfl, rfl, .inl ⟨.inr hd, rfl⟩⟩
    · obtain ⟨-, rfl⟩ := exec_accComplete_eq_next.1 h
      exact ⟨rfl, rfl, .inr ⟨_, rfl, rfl, (State.judged_dstate _).imp_right .inl⟩⟩

theorem DecoderState.pending_of_receives {s : State} (h : s.Receives) : s.dstate.pending = none := by
  obtain h | h := h <;> rw [h] <;> rfl

/-- Entering a terminal outcome where none was pending leaves its code pending (R149). -/
theorem Trace.enter {t : Nat} {es : List Event} {d : DecoderState} (h : Trace t none es)
    (hd : d = .frameReady ∨ d = .chkFailed ∨ d = .invalid) :
    Trace t d.pending (es ++ [.outcome d.outcomeCode]) := by
  obtain rfl | rfl | rfl := hd
  · exact .outcome 1 h (.inl rfl)
  · exact .outcome 3 h (.inr (.inr rfl))
  · exact .outcome 2 h (.inr (.inl rfl))

theorem received_keeps_traceOk {s t : State} {b : Byte} {i : Instr} (hs : s.stopped = false) (hr : s.Receives)
    (hok : s.TraceOk) (hdec : decode s.rxSpace [b] = .ok i) (h : exec i s = .next t) : t.TraceOk := by
  obtain ⟨hst, hp, hcase⟩ := exec_received hr hdec h
  rw [State.traceOk_iff_of_running hs, DecoderState.pending_of_receives hr] at hok
  rw [State.traceOk_iff_of_running (hst.trans hs), hp]
  obtain ⟨hr', ho⟩ | ⟨d, hd, ho, hterm⟩ := hcase
  · rw [DecoderState.pending_of_receives hr', ho]
    exact hok
  · rw [hd, ho]
    exact hok.enter hterm

/-! Dispatch. -/

/-- A dispatch that returns with the trace in the grammar and nothing pending. -/
theorem State.traceOk_resume {s : State} (hs : s.stopped = false) (h : Trace s.params.tSettle none s.out) :
    s.resume.TraceOk :=
  (State.traceOk_iff_of_running (s := s.resume) hs).2 h

theorem dispatchToken_keeps_traceOk {s t : State} (hok : Trace s.params.tSettle (some 1) s.out)
    (h : exec .dispatchToken s = .next t) : t.TraceOk := by
  obtain ⟨k, -, hs, hgrant⟩ := exec_dispatchToken_eq_next.1 h
  obtain ⟨-, u, hu, rfl⟩ := dispatchGrant_eq_next.1 hgrant
  have harb := State.Arbitrates.of_handleToken hu
  have hstop : u.stopped = false := harb.stopped.trans hs
  have hparams : u.params = s.params := by rw [harb.eq]; rfl
  refine State.traceOk_resume hstop ?_
  rw [hparams]
  obtain ⟨-, hack⟩ | ⟨d, q, -, hd, -, rfl⟩ | ⟨q, -, hack⟩ := handleToken_eq_next.1 hu
  · obtain ⟨-, -, rfl⟩ | ⟨-, rfl⟩ := ackAdmitted_eq_next.1 hack
    · simpa [bracket] using hok.tokenAck k
    · exact hok.token k
  · simpa [bracket] using hok.tokenRelay k d hd
  · obtain ⟨-, -, rfl⟩ | ⟨-, rfl⟩ := ackAdmitted_eq_next.1 hack
    · simpa [bracket] using hok.tokenEmptyAck k
    · simpa using hok.tokenEmpty k

theorem dispatchData_keeps_traceOk {s t : State} (hok : Trace s.params.tSettle (some 1) s.out)
    (h : exec .dispatchData s = .next t) : t.TraceOk := by
  obtain ⟨⟨hs, -, -⟩, hdisp⟩ := exec_dispatchData_eq_next.1 h
  obtain ⟨-, ⟨-, -, rfl⟩ | ⟨-, rfl⟩⟩ := dispatchFrame_eq_next.1 hdisp
  · refine State.traceOk_resume (by simpa using hs) ?_
    rw [State.handOn_out, State.sent_out_bracket, List.append_assoc]
    exact hok.dataAck _ _
  · exact State.traceOk_resume (by simpa using hs) (hok.data _ _)

theorem dispatchChkfail_keeps_traceOk {s t : State} (hok : Trace s.params.tSettle (some 3) s.out)
    (h : exec .dispatchChkfail s = .next t) : t.TraceOk := by
  obtain ⟨⟨hs, -⟩, -, ⟨-, -, rfl⟩ | ⟨-, rfl⟩⟩ := exec_dispatchChkfail_eq_next.1 h
  · refine State.traceOk_resume (by simpa using hs) ?_
    rw [State.sent_out_bracket]
    exact hok.failedNak
  · exact State.traceOk_resume hs hok.failed

/-- The block's turn keeps the trace in its grammar. -/
theorem block_keeps_traceOk {s u t : State} {i : Instr} (hok : s.TraceOk) (hf : fetchBlock s = .run i u)
    (h : exec i u = .next t) : t.TraceOk := by
  obtain ⟨hs, hcase⟩ := fetchBlock_eq_run.1 hf
  have hok' := (State.traceOk_iff_of_running hs).1 hok
  obtain ⟨hr, b, rest, -, hdec, rfl⟩ | ⟨hd, rfl, rfl⟩ | ⟨hd, rfl, rfl⟩ | ⟨hd, rfl, rfl⟩ := hcase
  · exact received_keeps_traceOk (s := { s with rxq := rest }) hs hr hok hdec h
  · rw [hd] at hok'
    rw [State.frameOp] at h
    split at h
    · exact dispatchToken_keeps_traceOk hok' h
    · exact dispatchData_keeps_traceOk hok' h
  · rw [hd] at hok'
    exact dispatchChkfail_keeps_traceOk hok' h
  · rw [hd] at hok'
    obtain ⟨-, rfl⟩ := exec_dispatchInvalid_eq_next.1 h
    exact State.traceOk_resume hs hok'.invalid

/-! The host's operations. -/

/-- RESET empties the trace, STOP leaves what was pending unanswered (D20), the others add no event. -/
theorem host_keeps_traceOk {s t : State} {ws : List Byte} {i : Instr} (hok : s.TraceOk)
    (hdec : decode .host ws = .ok i) (h : exec i s = .next t) : t.TraceOk := by
  obtain ⟨f, v, -, -, rfl⟩ | ⟨d, -, rfl⟩ | ⟨d, -, rfl⟩ | ⟨-, rfl⟩ | ⟨-, rfl⟩ := decodeHost_eq_ok.1 hdec
  · obtain ⟨-, rfl⟩ := exec_cfgWrite_eq_next.1 h
    exact hok.of_eq rfl rfl rfl rfl
  · obtain rfl := exec_rdqPush_eq_next.1 h
    exact hok.of_eq rfl rfl rfl rfl
  · obtain rfl := exec_wrqPush_eq_next.1 h
    exact hok.of_eq rfl rfl rfl rfl
  · obtain rfl := exec_reset_eq_next.1 h
    exact Trace.start
  · obtain rfl := exec_stop_eq_next.1 h
    exact hok.trace

/-- A step with no operation presented alone presents none. -/
theorem step_keeps_probe_none {s t : State} (hp : s.probe = none) (h : step s = .next t) : t.probe = none := by
  obtain ⟨-, ⟨i, u, hf, hu⟩ | hf⟩ := step_eq_next.1 h
  · obtain ⟨-, -, hprobe, -⟩ := configurationIsTheHosts i u t hu
    rw [hprobe]
    obtain ⟨-, hb⟩ | ⟨r, -, hb⟩ | ⟨ws, r, -, -, rfl⟩ := (fetch_eq_run hp).1 hf
    · rw [(fetchBlock_run_frame hb).1]; exact hp
    · rw [(fetchBlock_run_frame hb).1]; exact hp
    · exact hp
  · rw [fetch_settled_frame hf]; exact hp

/-- Settles O44: by the move. The block's turn and a host operation keep the grammar, a settled state has the same
trace. -/
theorem traceGrammarKept : Obligations.TraceGrammarKept := by
  intro s t hp hok h
  refine ⟨?_, step_keeps_probe_none hp h⟩
  obtain ⟨-, ⟨i, u, hf, hu⟩ | hf⟩ := step_eq_next.1 h
  · obtain ⟨-, hb⟩ | ⟨r, -, hb⟩ | ⟨ws, r, -, hdec, rfl⟩ := (fetch_eq_run hp).1 hf
    · exact block_keeps_traceOk hok hb hu
    · exact block_keeps_traceOk (s := { s with agenda := r }) hok hb hu
    · exact host_keeps_traceOk (s := { s with agenda := r }) hok hdec hu
  · rw [fetch_settled_frame hf]
    exact hok.of_eq rfl rfl rfl rfl

/-- Settles O45: the empty trace starts the grammar. -/
theorem traceGrammarAtReset : Obligations.TraceGrammarAtReset := Trace.start

/-! What the grammar says of the transmissions. -/

/-- Every list transmitted in `es` is an ACK, a NAK, or a datagram that `es` claims (R101 (f)). -/
def TransmissionsGranted (es : List Event) : Prop :=
  ∀ d ∈ transmissions es, d = [0x06] ∨ d = [0x15] ∨ (d ≠ [] ∧ ∃ k, Event.claim k d ∈ es)

theorem TransmissionsGranted.append {es fs : List Event} (he : TransmissionsGranted es)
    (hf : TransmissionsGranted fs) : TransmissionsGranted (es ++ fs) := by
  intro d hd
  rw [transmissions_append, List.mem_append] at hd
  obtain hd | hd := hd
  · exact (he d hd).imp_right (.imp_right fun ⟨hne, k, hk⟩ => ⟨hne, k, List.mem_append_left fs hk⟩)
  · exact (hf d hd).imp_right (.imp_right fun ⟨hne, k, hk⟩ => ⟨hne, k, List.mem_append_right es hk⟩)

theorem TransmissionsGranted.of_none {es : List Event} (h : transmissions es = []) : TransmissionsGranted es := by
  intro d hd
  rw [h] at hd
  cases hd

/-- One list is transmitted, and it is granted. -/
theorem TransmissionsGranted.of_one {es : List Event} {d : Datagram} (h : transmissions es = [d])
    (hd : d = [0x06] ∨ d = [0x15] ∨ (d ≠ [] ∧ ∃ k, Event.claim k d ∈ es)) : TransmissionsGranted es := by
  intro d' hd'
  rw [h, List.mem_singleton] at hd'
  rw [hd']
  exact hd

theorem Trace.granted {t : Nat} {p : Option Nat} {es : List Event} (h : Trace t p es) : TransmissionsGranted es := by
  induction h with
  | start => exact .of_none rfl
  | outcome c _ _ ih => exact ih.append (.of_none rfl)
  | invalid _ ih => exact ih
  | failed _ ih => exact ih
  | failedNak _ ih => exact ih.append (.of_one rfl (.inr (.inl rfl)))
  | data d fwd _ ih => exact ih.append (.of_none rfl)
  | dataAck d fwd _ ih => exact ih.append (.of_one rfl (.inl rfl))
  | token k _ ih => exact ih.append (.of_none rfl)
  | tokenAck k _ ih => exact ih.append (.of_one rfl (.inl rfl))
  | tokenRelay k d hd _ ih => exact ih.append (.of_one rfl (.inr (.inr ⟨hd, k, by simp⟩)))
  | tokenEmpty k _ ih => exact ih.append (.of_none rfl)
  | tokenEmptyAck k _ ih => exact ih.append (.of_one rfl (.inl rfl))

theorem outcomes_append (es fs : List Event) : outcomes (es ++ fs) = outcomes es ++ outcomes fs := by
  induction es with
  | nil => rfl
  | cons e es ih => cases e <;> simp [outcomes, ih]

/-- An answer of at most one transmission uses up the outcome it answers. -/
theorem transmissions_append_le {es fs : List Event} (hfs : (transmissions fs).length ≤ 1)
    (hes : (transmissions es).length + 1 ≤ (outcomes es).length) :
    (transmissions (es ++ fs)).length ≤ (outcomes (es ++ fs)).length := by
  rw [transmissions_append, outcomes_append, List.length_append, List.length_append]
  omega

/-- Each transmission answers an outcome of its own: a pending outcome has none yet (R101 (b)). -/
theorem Trace.transmissions_le_outcomes {t : Nat} {p : Option Nat} {es : List Event} (h : Trace t p es) :
    (transmissions es).length + p.toList.length ≤ (outcomes es).length := by
  induction h with
  | start => exact Nat.le_refl 0
  | outcome c _ _ ih =>
    rw [transmissions_append, outcomes_append, List.length_append, List.length_append]
    exact Nat.add_le_add_right ih 1
  | invalid _ ih => exact Nat.le_of_succ_le ih
  | failed _ ih => exact Nat.le_of_succ_le ih
  | failedNak _ ih => exact transmissions_append_le (Nat.le_refl 1) ih
  | data d fwd _ ih => exact transmissions_append_le (Nat.zero_le 1) ih
  | dataAck d fwd _ ih => exact transmissions_append_le (Nat.le_refl 1) ih
  | token k _ ih => exact transmissions_append_le (Nat.zero_le 1) ih
  | tokenAck k _ ih => exact transmissions_append_le (Nat.le_refl 1) ih
  | tokenRelay k d _ _ ih => exact transmissions_append_le (Nat.le_refl 1) ih
  | tokenEmpty k _ ih => exact transmissions_append_le (Nat.zero_le 1) ih
  | tokenEmptyAck k _ ih => exact transmissions_append_le (Nat.le_refl 1) ih

/-- Settles O46: the step keeps the grammar (O44), and every trace of the grammar has both properties. -/
theorem transmissionsAreGranted : Obligations.TransmissionsAreGranted := by
  intro s t hp hok h
  obtain ⟨p, htrace⟩ := (traceGrammarKept s t hp hok h).1.trace
  exact ⟨htrace.granted, Nat.le_of_add_right_le htrace.transmissions_le_outcomes⟩

end Sys2Proof.Machine
end

section
/-! The same step with another BUF and another MAX_FRAME: where the bytes of the frame in progress agree and both
sizes take the same frames, the block and the host do the same. Stale bytes and a large MAX_FRAME are the two cases
(R10, R84; R5). -/

namespace Sys2Proof.Machine

/-- The state with another BUF and another MAX_FRAME. -/
def State.over (s : State) (b : Mem) (m : Nat) : State :=
  { s with buf := b, params := { s.params with maxFrame := m } }

/-- `b` and `m` do for `s` what its own BUF and MAX_FRAME do: the invariants hold, the frame in progress has the same
bytes, the sizes are equal or both take every frame, whose greatest size is 261 (R56), and BUF is the same or both
are in their form. -/
structure State.Covers (s : State) (b : Mem) (m : Nat) : Prop where
  inv : s.FrameInv
  legal : s.params.Legal
  reads : ∀ i < s.idx, b.read i = s.buf.read i
  size : m = s.params.maxFrame ∨ (261 ≤ s.params.maxFrame ∧ 261 ≤ m)
  form : b = s.buf ∨ (s.buf.wf ∧ b.wf)

/-- The same change in both buffers: none and the position no further, or one byte at the position. -/
def SameWrite (s s' : State) (b b' : Mem) : Prop :=
  (s'.buf = s.buf ∧ b' = b ∧ s'.idx ≤ s.idx) ∨
    ∃ v, s'.buf = s.buf.write s.idx v ∧ b' = b.write s.idx v ∧ s'.idx = s.idx + 1

/-- The operation answers, over the other BUF and MAX_FRAME, the state it answers over its own. -/
def SameOver (i : Instr) (s s' : State) (b : Mem) (m : Nat) : Prop :=
  ∃ b', exec i (s.over b m) = .next (s'.over b' m) ∧ SameWrite s s' b b'

/-- An operation that leaves BUF and does not move the position on. -/
theorem SameOver.of_kept {i : Instr} {s s' : State} {b : Mem} {m : Nat}
    (h : exec i (s.over b m) = .next (s'.over b m)) (hbuf : s'.buf = s.buf) (hidx : s'.idx ≤ s.idx) :
    SameOver i s s' b m := ⟨b, h, .inl ⟨hbuf, rfl, hidx⟩⟩

/-! Reception. -/

/-- In ACCUM no frame in progress is longer than 260 bytes. -/
theorem State.FrameInv.idx_lt {s : State} (h : s.FrameInv) (hd : s.dstate = .accum) : s.idx < 261 := by
  have hneed := h.accum_need hd
  have hlen : (s.buf.read 4).toNat < 256 := (s.buf.read 4).isLt
  rw [zext] at hneed
  omega

/-- The buffer is full over the one size exactly when it is over the other. -/
theorem State.Covers.lt_iff {s : State} {b : Mem} {m : Nat} (h : s.Covers b m) (hd : s.dstate = .accum) :
    s.idx < m ↔ s.idx < s.params.maxFrame := by
  have hidx := h.inv.idx_lt hd
  obtain rfl | ⟨h1, h2⟩ := h.size
  · rfl
  · omega

/-- Where the length byte is of the frame in progress, the same size is declared. -/
theorem State.Covers.need_eq {s : State} {b : Mem} {m : Nat} (h : s.Covers b m) (h5 : 4 < s.idx) :
    (s.over b m).need = s.need := by
  rw [State.need_eq, State.need_eq, ← h.reads 4 h5]
  rfl

/-- The byte selects the same operation of ACCUM: the declared size counts only once it has arrived. -/
theorem State.Covers.decodeAccum_eq {s : State} {b : Mem} {m : Nat} (h : s.Covers b m) (hd : s.dstate = .accum)
    (x : Byte) : decodeAccum m s.idx (s.over b m).need x = decodeAccum s.params.maxFrame s.idx s.need x := by
  have hlt := h.lt_iff hd
  obtain ⟨hidx, heq⟩ | ⟨hidx, h6, heq⟩ | ⟨hidx, h6, hneed, heq⟩ | ⟨hidx, h6, hneed, heq⟩ :=
    decodeAccum_cases s.params.maxFrame s.idx s.need x
  all_goals rw [heq]
  · exact decodeAccum_of_full (Nat.le_of_not_lt (mt hlt.1 (Nat.not_lt_of_le hidx))) x
  · exact decodeAccum_of_short (hlt.2 hidx) h6 x
  · rw [h.need_eq (by omega)]
    exact decodeAccum_of_partial (hlt.2 hidx) h6 hneed x
  · rw [h.need_eq (by omega)]
    exact decodeAccum_of_complete (hlt.2 hidx) h6 hneed x

theorem State.Covers.decode_rxSpace {s : State} {b : Mem} {m : Nat} (h : s.Covers b m) (hr : s.Receives) (x : Byte) :
    decode (s.over b m).rxSpace [x] = decode s.rxSpace [x] := by
  obtain hd | hd := hr
  · have hd' : (s.over b m).dstate = .waitStart := hd
    rw [State.rxSpace, State.rxSpace, hd, hd']
  · have hd' : (s.over b m).dstate = .accum := hd
    rw [State.rxSpace, State.rxSpace, hd, hd']
    exact congrArg Except.ok (h.decodeAccum_eq hd x)

/-- The bytes of the frame with its last byte appended, and so the verdict, are the same. -/
theorem State.Covers.chkAccept_append {s : State} {b : Mem} {m : Nat} (h : s.Covers b m)
    (hd : s.dstate = .accum) (h6 : 6 ≤ s.idx + 1) (hneed : s.need ≤ s.idx + 1) (x : Byte) :
    (b.write s.idx x).chkAccept = (s.buf.write s.idx x).chkAccept := by
  obtain rfl | ⟨hw, hwb⟩ := h.form
  · rfl
  have hread : ∀ i ≤ s.idx, (b.write s.idx x).read i = (s.buf.write s.idx x).read i := by
    intro i hi
    rw [Mem.read_write hwb, Mem.read_write hw]
    split
    · rfl
    · next hne => exact h.reads i (by omega)
  have hsize : s.idx + 1 = zext ((s.buf.write s.idx x).read 4) + 6 := h.inv.complete_idx hw hd h6 hneed x
  have hlen : (b.write s.idx x).len = (s.buf.write s.idx x).len := congrArg zext (hread 4 (by omega))
  have hlen' : (s.buf.write s.idx x).len + 5 = s.idx := by rw [Mem.len, Config.idxLen]; omega
  have hcomputed : (b.write s.idx x).computed = (s.buf.write s.idx x).computed := by
    rw [Mem.computed, Mem.computed, hlen]
    exact congrArg xorAll (Mem.slice_congr fun i _ hi => hread i (by omega))
  have hstored : (b.write s.idx x).stored = (s.buf.write s.idx x).stored := by
    rw [Mem.stored, Mem.stored, hlen]
    exact hread _ (by omega)
  rw [Mem.chkAccept, Mem.chkAccept, hcomputed, hstored]

/-- Judging a frame over another buffer with the same verdict. -/
theorem State.judged_over {s : State} {b : Mem} {m : Nat} (h : b.chkAccept = s.buf.chkAccept) :
    (s.over b m).judged = s.judged.over b m := by
  have h' : (s.over b m).buf.chkAccept = s.buf.chkAccept := h
  rw [State.judged, State.judged, h']
  rfl

theorem received_over {s s' : State} {b : Mem} {m : Nat} {x : Byte} {i : Instr} (h : s.Covers b m)
    (hr : s.Receives) (hdec : decode s.rxSpace [x] = .ok i) (hx : exec i s = .next s') :
    SameOver i s s' b m := by
  obtain hd | hd := hr
  · have hidx : s.idx = 0 := h.inv.wait_idx hd
    rw [State.rxSpace, hd] at hdec
    cases hdec
    by_cases hstart : x = Config.start
    all_goals simp only [hstart, if_true, if_false] at hx ⊢
    · obtain ⟨hrec, hmax, rfl⟩ := exec_syncStart_eq_next.1 hx
      have hm : 0 < m := by have := h.legal.1; obtain hm | hm := h.size <;> omega
      refine ⟨b.write 0 0x5C, exec_syncStart_eq_next.2 ⟨hrec, hm, rfl⟩, .inr ⟨0x5C, ?_⟩⟩
      rw [hidx]
      exact ⟨rfl, rfl, rfl⟩
    · obtain ⟨hcond, rfl⟩ := exec_syncSkip_eq_next.1 hx
      exact .of_kept (exec_syncSkip_eq_next.2 ⟨hcond, rfl⟩) rfl (Nat.le_refl _)
  · have hlt := h.lt_iff hd
    rw [State.rxSpace, hd] at hdec
    cases hdec
    obtain ⟨-, heq⟩ | ⟨-, -, heq⟩ | ⟨-, -, -, heq⟩ | ⟨-, -, -, heq⟩ :=
      decodeAccum_cases s.params.maxFrame s.idx s.need x
    all_goals rw [heq] at hx ⊢
    · obtain ⟨⟨hrec, hfull⟩, rfl⟩ := exec_accOversize_eq_next.1 hx
      have hfull' : m ≤ s.idx := Nat.le_of_not_lt (mt hlt.1 (Nat.not_lt_of_le hfull))
      exact .of_kept (exec_accOversize_eq_next.2 ⟨⟨hrec, hfull'⟩, rfl⟩) rfl (Nat.le_refl _)
    · obtain ⟨⟨hrec, hidx, h6⟩, rfl⟩ := exec_accShort_eq_next.1 hx
      exact ⟨b.write s.idx x, exec_accShort_eq_next.2 ⟨⟨hrec, hlt.2 hidx, h6⟩, rfl⟩, .inr ⟨x, rfl, rfl, rfl⟩⟩
    · obtain ⟨⟨hrec, hidx, h6, hneed⟩, rfl⟩ := exec_accPartial_eq_next.1 hx
      have hneed' : s.idx + 1 < (s.over b m).need := by rw [h.need_eq (by omega)]; exact hneed
      exact ⟨b.write s.idx x, exec_accPartial_eq_next.2 ⟨⟨hrec, hlt.2 hidx, h6, hneed'⟩, rfl⟩,
        .inr ⟨x, rfl, rfl, rfl⟩⟩
    · obtain ⟨⟨hrec, hidx, h6, hneed⟩, rfl⟩ := exec_accComplete_eq_next.1 hx
      have hneed' : (s.over b m).need ≤ s.idx + 1 := by rw [h.need_eq (by omega)]; exact hneed
      have hjudged : ((s.over b m).append x).judged = ((s.append x).judged).over (b.write s.idx x) m :=
        State.judged_over (s := s.append x) (h.chkAccept_append hd h6 hneed x)
      exact ⟨b.write s.idx x, exec_accComplete_eq_next.2 ⟨⟨hrec, hlt.2 hidx, h6, hneed'⟩, hjudged.symm⟩,
        .inr ⟨x, rfl, rfl, rfl⟩⟩

/-! Dispatch. -/

theorem State.over_sent (s : State) (b : Mem) (m : Nat) (d : Datagram) :
    (s.over b m).sent d = (s.sent d).over b m := rfl

theorem State.over_handOn (s : State) (b : Mem) (m : Nat) (d : Datagram) (fwd : Bool) :
    (s.over b m).handOn d fwd = (s.handOn d fwd).over b m := rfl

theorem State.over_resume (s : State) (b : Mem) (m : Nat) : (s.over b m).resume = s.resume.over b m := rfl

theorem State.over_claimed (s : State) (b : Mem) (m : Nat) (k : TokenKind) (d : Datagram) (q : List Datagram) :
    (s.over b m).claimed k d q = (s.claimed k d q).over b m := by
  cases k <;> rfl

theorem ackAdmitted_over {s t : State} {b : Mem} {m : Nat} (hread : b.read 2 = s.buf.read 2)
    (h : ackAdmitted s = .next t) : ackAdmitted (s.over b m) = .next (t.over b m) := by
  have hacks : (s.over b m).acks = s.acks := congrArg (shouldAck s.cfg) hread
  rw [ackAdmitted_eq_next] at h ⊢
  rw [hacks]
  obtain ⟨hack, hde, rfl⟩ | ⟨hack, rfl⟩ := h
  · exact .inl ⟨hack, hde, rfl⟩
  · exact .inr ⟨hack, rfl⟩

theorem handleToken_over {s t : State} {b : Mem} {m : Nat} {k : TokenKind} (hread : b.read 2 = s.buf.read 2)
    (h : handleToken k s = .next t) : handleToken k (s.over b m) = .next (t.over b m) := by
  have hqueue : (s.over b m).queue k = s.queue k := by cases k <;> rfl
  rw [handleToken_eq_next] at h ⊢
  rw [hqueue]
  obtain ⟨hq, hack⟩ | ⟨d, q, hq, hd, hde, rfl⟩ | ⟨q, hq, hack⟩ := h
  · exact .inl ⟨hq, ackAdmitted_over hread hack⟩
  · exact .inr (.inl ⟨d, q, hq, hd, hde, by rw [State.over_claimed, State.over_sent]⟩)
  · refine .inr (.inr ⟨q, hq, ?_⟩)
    rw [State.over_claimed]
    exact ackAdmitted_over (by rw [State.claimed_buf]; exact hread) hack

/-- A complete frame fits both sizes. -/
theorem State.Covers.need_le {s : State} {b : Mem} {m : Nat} (h : s.Covers b m)
    (hd : s.dstate = .frameReady ∨ s.dstate = .chkFailed) :
    6 ≤ s.idx ∧ s.idx = s.len + 6 ∧ s.len + 5 < m ∧ (s.over b m).len = s.len := by
  obtain ⟨hidx, h6, hmax, -⟩ := h.inv.complete hd
  have hread : (s.over b m).len = s.len := congrArg zext (h.reads 4 (by omega))
  have hlen : (s.buf.read 4).toNat < 256 := (s.buf.read 4).isLt
  rw [zext] at hidx
  refine ⟨h6, hidx, ?_, hread⟩
  show (s.buf.read 4).toNat + 5 < m
  obtain hm | hm := h.size <;> omega

theorem State.Covers.tokenKind_over {s : State} {b : Mem} {m : Nat} (h : s.Covers b m) (hd : s.dstate = .frameReady) :
    (s.over b m).tokenKind = s.tokenKind := by
  obtain ⟨h6, -⟩ := h.need_le (.inl hd)
  have h2 : (s.over b m).buf.read 2 = s.buf.read 2 := h.reads 2 (by omega)
  have h3 : (s.over b m).buf.read 3 = s.buf.read 3 := h.reads 3 (by omega)
  have h4 : (s.over b m).buf.read 4 = s.buf.read 4 := h.reads 4 (by omega)
  rw [State.tokenKind, State.tokenKind, State.addr_eq, State.addr_eq, State.cmd_eq, State.cmd_eq, h2, h3, h4]
  rfl

theorem State.Covers.frameOutBytes_over {s : State} {b : Mem} {m : Nat} (h : s.Covers b m)
    (hd : s.dstate = .frameReady) : (s.over b m).frameOutBytes = s.frameOutBytes := by
  obtain ⟨-, hidx, -, hlen⟩ := h.need_le (.inl hd)
  have hlength : (s.over b m).frameOutLength = s.frameOutLength := by
    rw [State.frameOutLength, State.frameOutLength, hlen]
    rfl
  have hle : s.frameOutLength ≤ s.idx := by
    rw [State.frameOutLength]
    split <;> omega
  rw [State.frameOutBytes, State.frameOutBytes, hlength]
  exact Mem.slice_congr fun i _ hi => h.reads i (by omega)

theorem dispatchToken_over {s s' : State} {b : Mem} {m : Nat} (h : s.Covers b m)
    (hx : exec .dispatchToken s = .next s') : SameOver .dispatchToken s s' b m := by
  obtain ⟨k, hk, hs, hgrant⟩ := exec_dispatchToken_eq_next.1 hx
  have hd : s.dstate = .frameReady := (State.presents_iff.2 hk).1
  obtain ⟨-, u, hu, rfl⟩ := dispatchGrant_eq_next.1 hgrant
  obtain ⟨h6, -, hmax, -⟩ := h.need_le (.inl hd)
  have hu' : handleToken k ((s.emit (.token k)).over b m) = .next (u.over b m) :=
    handleToken_over (h.reads 2 (by omega)) hu
  have hgrant' : dispatchGrant k (s.over b m) = .next (u.resume.over b m) :=
    dispatchGrant_eq_next.2 ⟨show 5 < m by omega, u.over b m, hu', rfl⟩
  have hbuf : u.buf = s.buf := (State.Arbitrates.of_handleToken hu).buf
  have hrun : exec .dispatchToken (s.over b m) = .next (u.resume.over b m) :=
    exec_dispatchToken_eq_next.2 ⟨k, (h.tokenKind_over hd).trans hk, hs, hgrant'⟩
  exact .of_kept hrun hbuf (Nat.zero_le _)

theorem dispatchData_over {s s' : State} {b : Mem} {m : Nat} (h : s.Covers b m)
    (hx : exec .dispatchData s = .next s') : SameOver .dispatchData s s' b m := by
  obtain ⟨⟨hs, hd, htok⟩, hdisp⟩ := exec_dispatchData_eq_next.1 hx
  obtain ⟨h6, -, hmax, hlen⟩ := h.need_le (.inl hd)
  have htok' : (s.over b m).isToken = false := by
    rw [State.isToken, h.tokenKind_over hd]
    exact htok
  have hread : (s.over b m).buf.read 2 = s.buf.read 2 := h.reads 2 (by omega)
  have hacks : (s.over b m).acks = s.acks := congrArg (shouldAck s.cfg) hread
  have haddr : fwdScope (s.over b m).cfg (s.over b m).addr = fwdScope s.cfg s.addr :=
    congrArg (fwdScope s.cfg) hread
  have hdisp' : dispatchFrame (s.over b m) = .next (s'.over b m) := by
    rw [dispatchFrame_eq_next, hlen, hacks, haddr, h.frameOutBytes_over hd]
    refine ⟨hmax, ?_⟩
    obtain ⟨-, ⟨hack, hde, rfl⟩ | ⟨hack, rfl⟩⟩ := dispatchFrame_eq_next.1 hdisp
    · exact .inl ⟨hack, hde, by rw [State.over_sent, State.over_handOn, State.over_resume]⟩
    · exact .inr ⟨hack, by rw [State.over_handOn, State.over_resume]⟩
  have hrun : exec .dispatchData (s.over b m) = .next (s'.over b m) :=
    exec_dispatchData_eq_next.2 ⟨⟨hs, hd, htok'⟩, hdisp'⟩
  obtain ⟨-, ⟨-, -, rfl⟩ | ⟨-, rfl⟩⟩ := dispatchFrame_eq_next.1 hdisp
  · exact .of_kept hrun (by simp) (by simp)
  · exact .of_kept hrun (by simp) (by simp)

theorem dispatchChkfail_over {s s' : State} {b : Mem} {m : Nat} (h : s.Covers b m)
    (hx : exec .dispatchChkfail s = .next s') : SameOver .dispatchChkfail s s' b m := by
  obtain ⟨⟨hs, hd⟩, -, hcase⟩ := exec_dispatchChkfail_eq_next.1 hx
  obtain ⟨h6, -, hmax, -⟩ := h.need_le (.inr hd)
  have hread : (s.over b m).buf.read 2 = s.buf.read 2 := h.reads 2 (by omega)
  have hacks : (s.over b m).acks = s.acks := congrArg (shouldAck s.cfg) hread
  have hm : 2 < (s.over b m).params.maxFrame := show 2 < m by omega
  obtain ⟨hack, hde, rfl⟩ | ⟨hack, rfl⟩ := hcase
  · have hnext : (s.sent [0x15]).resume.over b m = ((s.over b m).sent [0x15]).resume := by
      rw [State.over_sent, State.over_resume]
    exact .of_kept (exec_dispatchChkfail_eq_next.2 ⟨⟨hs, hd⟩, hm, .inl ⟨hacks.trans hack, hde, hnext⟩⟩) (by simp)
      (by simp)
  · exact .of_kept (exec_dispatchChkfail_eq_next.2 ⟨⟨hs, hd⟩, hm, .inr ⟨hacks.trans hack, rfl⟩⟩) rfl (Nat.zero_le _)

/-! The host's operations. -/

theorem host_over {s s' : State} {ws : List Byte} {i : Instr} (b : Mem) (m : Nat) (hdec : decode .host ws = .ok i)
    (hx : exec i s = .next s') : SameOver i s s' b m := by
  obtain ⟨f, v, -, -, rfl⟩ | ⟨d, -, rfl⟩ | ⟨d, -, rfl⟩ | ⟨-, rfl⟩ | ⟨-, rfl⟩ := decodeHost_eq_ok.1 hdec
  · obtain ⟨hv, rfl⟩ := exec_cfgWrite_eq_next.1 hx
    exact .of_kept (exec_cfgWrite_eq_next.2 ⟨hv, rfl⟩) rfl (Nat.le_refl _)
  · obtain rfl := exec_rdqPush_eq_next.1 hx
    exact .of_kept (exec_rdqPush_eq_next.2 rfl) rfl (Nat.le_refl _)
  · obtain rfl := exec_wrqPush_eq_next.1 hx
    exact .of_kept (exec_wrqPush_eq_next.2 rfl) rfl (Nat.le_refl _)
  · obtain rfl := exec_reset_eq_next.1 hx
    exact .of_kept (exec_reset_eq_next.2 rfl) rfl (Nat.zero_le _)
  · obtain rfl := exec_stop_eq_next.1 hx
    exact .of_kept (exec_stop_eq_next.2 rfl) rfl (Nat.zero_le _)

/-! The step. -/

/-- What is covered does not depend on the receive stream and the agenda. -/
theorem State.Covers.of_eq {s t : State} {b : Mem} {m : Nat} (h : s.Covers b m)
    (ht : t = { s with rxq := t.rxq, agenda := t.agenda }) : t.Covers b m := by
  rw [ht]
  exact ⟨h.inv.of_eq rfl rfl rfl rfl rfl h.inv.receiving, h.legal, h.reads, h.size, h.form⟩

/-- The block's turn over another BUF and MAX_FRAME fetches the same operation and does the same. -/
theorem block_over {s u s' : State} {b : Mem} {m : Nat} {i : Instr} (h : s.Covers b m)
    (hf : fetchBlock s = .run i u) (hx : exec i u = .next s') :
    fetchBlock (s.over b m) = .run i (u.over b m) ∧ SameOver i u s' b m := by
  obtain ⟨hs, hcase⟩ := fetchBlock_eq_run.1 hf
  have hs' : (s.over b m).stopped = false := hs
  obtain ⟨hr, x, rest, hq, hdec, rfl⟩ | ⟨hd, rfl, rfl⟩ | ⟨hd, rfl, rfl⟩ | ⟨hd, rfl, rfl⟩ := hcase
  · have hdec' : decode (s.over b m).rxSpace [x] = .ok i := (h.decode_rxSpace hr x).trans hdec
    exact ⟨fetchBlock_eq_run.2 ⟨hs', .inl ⟨hr, x, rest, hq, hdec', rfl⟩⟩,
      received_over (s := { s with rxq := rest }) (h.of_eq rfl) hr hdec hx⟩
  · have hop : (u.over b m).frameOp = u.frameOp := by
      rw [State.frameOp, State.frameOp, State.isToken, State.isToken, h.tokenKind_over hd]
    refine ⟨fetchBlock_eq_run.2 ⟨hs', .inr (.inl ⟨hd, hop.symm, rfl⟩)⟩, ?_⟩
    rw [State.frameOp] at hx ⊢
    split at hx
    · next htok => rw [if_pos htok]; exact dispatchToken_over h hx
    · next htok => rw [if_neg htok]; exact dispatchData_over h hx
  · exact ⟨fetchBlock_eq_run.2 ⟨hs', .inr (.inr (.inl ⟨hd, rfl, rfl⟩))⟩, dispatchChkfail_over h hx⟩
  · obtain ⟨hcond, rfl⟩ := exec_dispatchInvalid_eq_next.1 hx
    exact ⟨fetchBlock_eq_run.2 ⟨hs', .inr (.inr (.inr ⟨hd, rfl, rfl⟩))⟩,
      .of_kept (exec_dispatchInvalid_eq_next.2 ⟨hcond, rfl⟩) rfl (Nat.zero_le _)⟩

/-- A step with no operation presented alone does the same over another BUF and MAX_FRAME. -/
theorem step_over {s s' : State} {b : Mem} {m : Nat} (hp : s.probe = none) (h : s.Covers b m)
    (hx : step s = .next s') : ∃ b', step (s.over b m) = .next (s'.over b' m) ∧ SameWrite s s' b b' := by
  have hlegal : (s.over b m).params.Legal := by
    have h6 := h.legal.1
    refine ⟨show 6 ≤ m from ?_, h.legal.2⟩
    obtain hm | hm := h.size <;> omega
  have hp' : (s.over b m).probe = none := hp
  obtain ⟨-, ⟨i, u, hf, hu⟩ | hf⟩ := step_eq_next.1 hx
  · obtain ⟨ha, hb⟩ | ⟨r, ha, hb⟩ | ⟨ws, r, ha, hdec, rfl⟩ := (fetch_eq_run hp).1 hf
    · obtain ⟨hfetch, b', hrun, hsame⟩ := block_over h hb hu
      rw [(fetchBlock_run_frame hb).1] at hsame
      exact ⟨b', (step_of_run hlegal ((fetch_eq_run hp').2 (.inl ⟨ha, hfetch⟩))).trans hrun, hsame⟩
    · obtain ⟨hfetch, b', hrun, hsame⟩ := block_over (s := { s with agenda := r }) (h.of_eq rfl) hb hu
      rw [(fetchBlock_run_frame hb).1] at hsame
      exact ⟨b', (step_of_run hlegal ((fetch_eq_run hp').2 (.inr (.inl ⟨r, ha, hfetch⟩)))).trans hrun, hsame⟩
    · obtain ⟨b', hrun, hsame⟩ := host_over b m hdec hu
      exact ⟨b', (step_of_run hlegal ((fetch_eq_run hp').2 (.inr (.inr ⟨ws, r, ha, hdec, rfl⟩)))).trans hrun, hsame⟩
  · have hsettled : fetch (s.over b m) = .settled (s'.over b m) := by
      rw [fetch_eq_settled hp] at hf
      rw [fetch_eq_settled hp']
      obtain ⟨ha, hq, rfl⟩ | ⟨r, ha, hq, rfl⟩ | ⟨x, r, ha, rfl⟩ | ⟨r, ha, rfl⟩ := hf
      · exact .inl ⟨ha, hq, rfl⟩
      · exact .inr (.inl ⟨r, ha, hq, rfl⟩)
      · exact .inr (.inr (.inl ⟨x, r, ha, rfl⟩))
      · exact .inr (.inr (.inr ⟨r, ha, rfl⟩))
    refine ⟨b, step_of_settled hlegal hsettled, .inl ?_⟩
    rw [fetch_settled_frame hf]
    exact ⟨rfl, rfl, Nat.le_refl _⟩

/-- After the same write the frame in progress has the same bytes. -/
theorem SameWrite.reads {s s' : State} {b b' : Mem} (h : SameWrite s s' b b') (hw : s.buf.wf) (hwb : b.wf)
    (hreads : ∀ i < s.idx, b.read i = s.buf.read i) : ∀ i < s'.idx, b'.read i = s'.buf.read i := by
  obtain ⟨hbuf, rfl, hidx⟩ | ⟨v, hbuf, rfl, hidx⟩ := h
  · rw [hbuf]
    exact fun i hi => hreads i (by omega)
  · intro i hi
    rw [hbuf, Mem.read_write hwb, Mem.read_write hw]
    split
    · rfl
    · exact hreads i (by omega)

/-- No step changes a parameter (R5). -/
theorem step_keeps_params {s t : State} (h : step s = .next t) : t.params = s.params :=
  step_keeps (P := fun u => u.params = s.params) (fun _ _ _ _ _ hu => hu)
    (fun i u v hu hx => (configurationIsTheHosts i u v hx).1.trans hu) rfl h

/-- Settles O56: the other state is the one over the other's BUF and the same MAX_FRAME. -/
theorem staleBytesNeverMatter : Obligations.StaleBytesNeverMatter := by
  rintro s t s' hp hw hwb hinv ⟨ht, hreads⟩ hx
  have hcovers : s.Covers t.buf s.params.maxFrame := ⟨hinv, (step_eq_next.1 hx).1, hreads, .inl rfl, .inr ⟨hw, hwb⟩⟩
  obtain ⟨b', hrun, hsame⟩ := step_over hp hcovers hx
  have ht' : t = s.over t.buf s.params.maxFrame := ht
  have hmax : s'.params.maxFrame = s.params.maxFrame := congrArg Params.maxFrame (step_keeps_params hx)
  rw [← ht', ← hmax] at hrun
  exact ⟨_, hrun, rfl, hsame.reads hw hwb hreads⟩

/-- Settles O57: the other state is the one over its own BUF and the other MAX_FRAME. -/
theorem largeMaxFrameIsIrrelevant : Obligations.LargeMaxFrameIsIrrelevant := by
  intro s t m hp hinv hmax hm hx
  have hcovers : s.Covers s.buf m := ⟨hinv, (step_eq_next.1 hx).1, fun _ _ => rfl, .inr ⟨hmax, hm⟩, .inl rfl⟩
  obtain ⟨b', hrun, hsame⟩ := step_over hp hcovers hx
  have hbuf : b' = t.buf := by
    obtain ⟨ht, hb, -⟩ | ⟨v, ht, hb, -⟩ := hsame
    · exact hb.trans ht.symm
    · exact hb.trans ht.symm
  rw [hbuf] at hrun
  exact hrun

end Sys2Proof.Machine
end

section
/-! Runs of the block with the bus and the host silent: noise, a whole frame, a frame that does not fit, a token
answered (spec/40 section 4, spec/95); and that the block's turn always answers (spec/44 R139, R160). -/

namespace Sys2Proof.Machine

/-- Only the block moves: legal parameters, nothing on the agenda, nothing presented alone, not stopped (log 7,
log 9). -/
structure State.Silent (s : State) : Prop where
  legal : s.params.Legal
  probe : s.probe = none
  agenda : s.agenda = []
  running : s.stopped = false

theorem State.Silent.blockMoves {s : State} (h : s.Silent) : BlockMoves s s :=
  ⟨h.legal, h.probe, .inl ⟨h.agenda, rfl⟩⟩

/-- Silence does not depend on the decoder and the receive stream. -/
theorem State.Silent.of_eq {s t : State} (h : s.Silent)
    (ht : t = { s with buf := t.buf, dstate := t.dstate, idx := t.idx, rxq := t.rxq, out := t.out }) : t.Silent := by
  rw [ht]
  exact ⟨h.legal, h.probe, h.agenda, h.running⟩

/-- A run is a first part and then a second. -/
theorem run_add (m n : Nat) (s : State) : run (m + n) s = andThen (run m s) (run n) := by
  induction m generalizing s with
  | zero => rw [Nat.zero_add]; rfl
  | succ m ih =>
    rw [Nat.succ_add, run, run]
    cases step s with
    | next t => exact ih t
    | fault e => rfl
    | refused e => rfl

theorem run_succ_of_step {s t : State} (h : step s = .next t) (n : Nat) : run (n + 1) s = run n t := by
  rw [run, h]; rfl

theorem run_add_of_run {m : Nat} {s t : State} (h : run m s = .next t) (n : Nat) : run (m + n) s = run n t := by
  rw [run_add, h]; rfl

theorem run_one (s : State) : run 1 s = step s := by
  rw [run]
  cases step s <;> rfl

/-! One received byte. -/

/-- The block's RX step is the operation its byte decodes to, on the state without the byte. -/
theorem step_received {s : State} {b : Byte} {rest : List Byte} {i : Instr} (h : s.Silent) (hr : s.Receives)
    (hq : s.rxq = b :: rest) (hdec : decode s.rxSpace [b] = .ok i) : step s = exec i { s with rxq := rest } :=
  stepRunsDecodedOperation.1 s s b rest i h.blockMoves h.running hr hq hdec

theorem decode_rxSpace_wait {s : State} (hd : s.dstate = .waitStart) (b : Byte) :
    decode s.rxSpace [b] = .ok (if b = 0x5C then .syncStart else .syncSkip b) := by
  rw [State.rxSpace, hd]; rfl

theorem decode_rxSpace_accum {s : State} (hd : s.dstate = .accum) (b : Byte) :
    decode s.rxSpace [b] = .ok (decodeAccum s.params.maxFrame s.idx s.need b) := by
  rw [State.rxSpace, hd]; rfl

theorem step_skip {s : State} {b : Byte} {rest : List Byte} (h : s.Silent) (hd : s.dstate = .waitStart)
    (hq : s.rxq = b :: rest) (hb : b ≠ 0x5C) : step s = .next { s with rxq := rest } := by
  rw [step_received h (.inl hd) hq (decode_rxSpace_wait hd b), if_neg hb]
  exact exec_syncSkip_eq_next.2 ⟨⟨⟨h.running, hd⟩, hb⟩, rfl⟩

theorem step_start {s : State} {rest : List Byte} (h : s.Silent) (hd : s.dstate = .waitStart)
    (hq : s.rxq = 0x5C :: rest) :
    step s = .next { s with rxq := rest, buf := s.buf.write 0 0x5C, idx := 1, dstate := .accum } := by
  rw [step_received h (.inl hd) hq (decode_rxSpace_wait hd _), if_pos rfl]
  exact exec_syncStart_eq_next.2 ⟨⟨h.running, hd⟩, Nat.lt_of_lt_of_le (by decide) h.legal.1, rfl⟩

theorem step_grow {s : State} {b : Byte} {rest : List Byte} (h : s.Silent) (hg : s.Grows) (hq : s.rxq = b :: rest) :
    step s = .next { s with rxq := rest, buf := s.buf.write s.idx b, idx := s.idx + 1 } := by
  obtain ⟨⟨-, hd⟩, hidx, h6 | ⟨h6, hneed⟩⟩ := hg
  · rw [step_received h (.inr hd) hq (decode_rxSpace_accum hd b), decodeAccum_of_short hidx h6]
    exact exec_accShort_eq_next.2 ⟨⟨⟨h.running, hd⟩, hidx, h6⟩, rfl⟩
  · rw [step_received h (.inr hd) hq (decode_rxSpace_accum hd b), decodeAccum_of_partial hidx h6 hneed]
    exact exec_accPartial_eq_next.2 ⟨⟨⟨h.running, hd⟩, hidx, h6, hneed⟩, rfl⟩

theorem step_complete {s : State} {b : Byte} {rest : List Byte} (h : s.Silent) (hd : s.dstate = .accum)
    (hidx : s.idx < s.params.maxFrame) (h6 : 6 ≤ s.idx + 1) (hneed : s.need ≤ s.idx + 1) (hq : s.rxq = b :: rest) :
    step s = .next ({ s with rxq := rest }.append b).judged := by
  rw [step_received h (.inr hd) hq (decode_rxSpace_accum hd b), decodeAccum_of_complete hidx h6 hneed]
  exact exec_accComplete_eq_next.2 ⟨⟨⟨h.running, hd⟩, hidx, h6, hneed⟩, rfl⟩

theorem step_overflow {s : State} {b : Byte} {rest : List Byte} (h : s.Silent) (hd : s.dstate = .accum)
    (hfull : s.params.maxFrame ≤ s.idx) (hq : s.rxq = b :: rest) :
    step s = .next ({ s with rxq := rest }.enter .invalid) := by
  rw [step_received h (.inr hd) hq (decode_rxSpace_accum hd b), decodeAccum_of_full hfull]
  exact exec_accOversize_eq_next.2 ⟨⟨⟨h.running, hd⟩, hfull⟩, rfl⟩

/-! Many received bytes. -/

/-- Settles O52: by induction on the number of bytes, each one step that takes it and changes nothing else. -/
theorem noiseIsSkipped : Obligations.NoiseIsSkipped := by
  intro n
  induction n with
  | zero => exact fun s _ _ _ _ _ _ _ => rfl
  | succ n ih =>
    intro s hl hp ha hs hd hn hb
    cases hq : s.rxq with
    | nil => rw [hq] at hn; cases hn
    | cons b rest =>
      rw [hq, List.take_succ_cons, List.forall_mem_cons] at hb
      rw [hq, List.length_cons] at hn
      rw [run_succ_of_step (step_skip ⟨hl, hp, ha, hs⟩ hd hq hb.1) n]
      exact ih { s with rxq := rest } hl hp ha hs hd (Nat.le_of_succ_le_succ hn) hb.2

/-- Bytes that leave a frame incomplete are loaded into BUF from the position up, one a step: either the length byte
is not reached, or it stands and declares more. -/
theorem run_grow {ws rest : List Byte} {s : State} (h : s.Silent) (hw : s.buf.wf) (hd : s.dstate = .accum)
    (hq : s.rxq = ws ++ rest) (hmax : s.idx + ws.length ≤ s.params.maxFrame)
    (hpart : s.idx + ws.length ≤ 5 ∨ (5 ≤ s.idx ∧ s.idx + ws.length < s.need)) :
    run ws.length s = .next { s with rxq := rest, buf := s.buf.load s.idx ws, idx := s.idx + ws.length } := by
  induction ws generalizing s with
  | nil =>
    rw [List.nil_append] at hq
    rw [← hq]
    rfl
  | cons b ws ih =>
    rw [List.length_cons] at hmax hpart ⊢
    have hg : s.Grows := ⟨⟨h.running, hd⟩, by omega, by omega⟩
    have hneed : 5 ≤ s.idx → (s.buf.write s.idx b).len = s.len := fun h5 =>
      congrArg zext (Mem.read_write_ne hw (Nat.ne_of_lt h5) b)
    have hpart' : s.idx + 1 + ws.length ≤ 5 ∨
        (5 ≤ s.idx + 1 ∧ s.idx + 1 + ws.length < (s.buf.write s.idx b).len + 6) := by
      obtain h5 | ⟨h5, hlt⟩ := hpart
      · exact .inl (by omega)
      · rw [hneed h5]
        rw [State.need, Config.overhead] at hlt
        exact .inr ⟨by omega, by omega⟩
    have hrest := ih (s := { s with rxq := ws ++ rest, buf := s.buf.write s.idx b, idx := s.idx + 1 }) (h.of_eq rfl)
      (Mem.wf_write hw s.idx b) hd rfl (show s.idx + 1 + ws.length ≤ s.params.maxFrame by omega) hpart'
    have hidx : s.idx + 1 + ws.length = s.idx + (ws.length + 1) := by omega
    rw [← hidx]
    exact (run_succ_of_step (step_grow h hg hq) ws.length).trans hrest

/-- The length byte of loaded frame bytes. -/
theorem Mem.read_load_length {m : Mem} (hw : m.wf) (x h a c n : Byte) (ws : List Byte) :
    (m.load 0 (x :: h :: a :: c :: n :: ws)).read 4 = n := by
  have hslice := Mem.slice_load hw 0 (x :: h :: a :: c :: n :: ws)
  simp only [List.length_cons, Mem.slice, List.cons.injEq, Nat.zero_add, Nat.reduceAdd] at hslice
  obtain ⟨-, -, -, -, hlength, -⟩ := hslice
  exact hlength

/-- The first bytes of a frame, the length byte among them, as long as it is incomplete and fits. -/
theorem run_incomplete {s : State} {h a c n : Byte} {ws rest : List Byte} (hsil : s.Silent)
    (hd : s.dstate = .waitStart) (hw : s.buf.wf) (hq : s.rxq = 0x5C :: h :: a :: c :: n :: ws ++ rest)
    (hmax : ws.length + 5 ≤ s.params.maxFrame) (hlen : ws.length < zext n + 1) :
    run (ws.length + 5) s = .next { s with
      rxq := rest, buf := s.buf.load 0 (0x5C :: h :: a :: c :: n :: ws), idx := ws.length + 5, dstate := .accum } := by
  have hhead : run 4 { s with
      rxq := [h, a, c, n] ++ (ws ++ rest), buf := s.buf.write 0 0x5C, idx := 1, dstate := .accum } =
      .next { s with rxq := ws ++ rest, buf := s.buf.load 0 [0x5C, h, a, c, n], idx := 5, dstate := .accum } :=
    run_grow (ws := [h, a, c, n]) (hsil.of_eq rfl) (Mem.wf_write hw 0 0x5C) rfl rfl
      (show 5 ≤ s.params.maxFrame by omega) (.inl (Nat.le_refl 5))
  have hneed : (s.buf.load 0 [0x5C, h, a, c, n]).len = zext n := congrArg zext (Mem.read_load_length hw _ _ _ _ _ _)
  have htail : run ws.length { s with
      rxq := ws ++ rest, buf := s.buf.load 0 [0x5C, h, a, c, n], idx := 5, dstate := .accum } =
      .next { s with
        rxq := rest, buf := (s.buf.load 0 [0x5C, h, a, c, n]).load 5 ws, idx := 5 + ws.length, dstate := .accum } :=
    run_grow (hsil.of_eq rfl) (Mem.wf_load hw 0 _) rfl rfl (show 5 + ws.length ≤ s.params.maxFrame by omega)
      (.inr ⟨Nat.le_refl 5, show 5 + ws.length < (s.buf.load 0 [0x5C, h, a, c, n]).len + 6 by rw [hneed]; omega⟩)
  have hfive := (run_succ_of_step (step_start hsil hd hq) 4).trans hhead
  rw [Nat.add_comm ws.length 5, run_add_of_run hfive, htail]
  have hbuf : (s.buf.load 0 [0x5C, h, a, c, n]).load 5 ws = s.buf.load 0 (0x5C :: h :: a :: c :: n :: ws) :=
    (Mem.load_append s.buf 0 [0x5C, h, a, c, n] ws).symm
  rw [hbuf]

/-- A frame that fits: all but its last byte leave it incomplete, the last one has it judged, and BUF is loaded with
the whole frame. -/
theorem run_frame {s : State} {h a c k : Byte} {p : Datagram} {rest : List Byte} (hsil : s.Silent)
    (hd : s.dstate = .waitStart) (hw : s.buf.wf) (hlen : p.length ≤ 255) (hmax : p.length + 6 ≤ s.params.maxFrame)
    (hq : s.rxq = encode (.frameData h a c p k) ++ rest) :
    run (p.length + 6) s = .next (State.judged { s with
      rxq := rest, buf := s.buf.load 0 (encode (.frameData h a c p k)), idx := p.length + 6, dstate := .accum }) := by
  have hzext := zext_ofNat_length hlen
  have hq' : s.rxq = 0x5C :: h :: a :: c :: BitVec.ofNat 8 p.length :: p ++ (k :: rest) := by
    rw [hq, encode]; simp
  have hfirst := run_incomplete hsil hd hw hq' (by omega) (by rw [hzext]; omega)
  have hneed : (s.buf.load 0 (0x5C :: h :: a :: c :: BitVec.ofNat 8 p.length :: p)).len = p.length :=
    (congrArg zext (Mem.read_load_length hw _ _ _ _ _ _)).trans hzext
  have hlast := step_complete (b := k) (rest := rest) (s := { s with
      rxq := k :: rest, buf := s.buf.load 0 (0x5C :: h :: a :: c :: BitVec.ofNat 8 p.length :: p),
      idx := p.length + 5, dstate := .accum }) (hsil.of_eq rfl) rfl (show p.length + 5 < s.params.maxFrame by omega)
    (show 6 ≤ p.length + 5 + 1 by omega)
    (show (s.buf.load 0 (0x5C :: h :: a :: c :: BitVec.ofNat 8 p.length :: p)).len + 6 ≤ p.length + 5 + 1 by
      rw [hneed]) rfl
  have happ := Mem.load_append s.buf 0 (0x5C :: h :: a :: c :: BitVec.ofNat 8 p.length :: p) [k]
  rw [Nat.zero_add] at happ
  have hbuf : s.buf.load 0 (encode (.frameData h a c p k)) =
      (s.buf.load 0 (0x5C :: h :: a :: c :: BitVec.ofNat 8 p.length :: p)).write (p.length + 5) k := happ
  rw [hbuf]
  exact (run_add_of_run hfirst 1).trans ((run_one _).trans hlast)

/-- A frame loaded at index 0 stands there. -/
theorem Mem.slice_load_frame {m : Mem} (hw : m.wf) (h a c k : Byte) (p : Datagram) :
    (m.load 0 (encode (.frameData h a c p k))).slice 0 (p.length + 6) = encode (.frameData h a c p k) := by
  have hsize : (encode (.frameData h a c p k)).length = p.length + 6 := by simp [encode]
  rw [← hsize]
  exact Mem.slice_load hw 0 _

/-- Settles O53: the frame is loaded and judged (`run_frame`), and the verdict on a buffer that holds a frame is the
condition on the frame's operands. -/
theorem frameIsReceivedWhole : Obligations.FrameIsReceivedWhole := by
  intro s h a c k p rest hl hp ha hs hd hw hlen hmax hq
  have hrun := run_frame ⟨hl, hp, ha, hs⟩ hd hw hlen hmax hq
  have hslice := Mem.slice_load_frame hw h a c k p
  obtain ⟨-, hm⟩ := Mem.holdsFrame_of_slice hslice
  have hverdict := hm.chkAccept_eq hlen
  refine ⟨_, hrun, hslice, fun hwf => ?_, fun hwf => ?_⟩
  · exact State.judged_of_accept (hverdict.trans hwf)
  · exact State.judged_of_reject (hverdict.trans hwf)

/-- Settles O54: the first MAX_FRAME bytes are loaded by `run_incomplete`, the next finds BUF full. -/
theorem oversizeIsSwallowed : Obligations.OversizeIsSwallowed := by
  intro s h a c n more rest hl hp ha hs hd hw hn hmore hq
  have hsil : s.Silent := ⟨hl, hp, ha, hs⟩
  have hne : more ≠ [] := by rintro rfl; have := hl.1; simp at hmore; omega
  obtain ⟨ws, x, rfl⟩ : ∃ ws x, more = ws ++ [x] := ⟨_, _, (List.dropLast_append_getLast hne).symm⟩
  rw [List.length_append, List.length_singleton] at hmore
  have hq' : s.rxq = 0x5C :: h :: a :: c :: n :: ws ++ (x :: rest) := by rw [hq]; simp
  have hfirst := run_incomplete hsil hd hw hq' (by omega) (by omega)
  have hlast := step_overflow (b := x) (rest := rest) (s := { s with
      rxq := x :: rest, buf := s.buf.load 0 (0x5C :: h :: a :: c :: n :: ws), idx := ws.length + 5,
      dstate := .accum }) (hsil.of_eq rfl) rfl (show s.params.maxFrame ≤ ws.length + 5 by omega) rfl
  have hrun := (run_add_of_run hfirst 1).trans ((run_one _).trans hlast)
  have hidx : ws.length + 5 = s.params.maxFrame := by omega
  rw [hidx] at hrun
  exact ⟨_, hrun, rfl⟩

/-- Settles O55: six steps receive the token frame (O53), the seventh dispatches it (O30). -/
theorem tokenRelaysQueuedDatagram : Obligations.TokenRelaysQueuedDatagram := by
  intro s kind h k d q rest hl hp ha hs hd hde hw hwf hq hqueue hne
  obtain ⟨u, hrun, hframe, haccept, -⟩ := frameIsReceivedWhole s h s.cfg.ownAddress kind.command k [] rest hl hp ha hs
    hd hw (by simp) hl.1 hq
  have hwf' : (Instr.frameData h s.cfg.ownAddress kind.command [] k).WellFormed = true := by
    simpa [Instr.WellFormed] using hwf
  have hu := haccept hwf'
  have hready : u.dstate = .frameReady := by rw [hu]
  have hrunning : u.stopped = false := by rw [hu]; exact hs
  have hkind : u.Presents kind :=
    State.presents_of_frameBytes hready (by rw [hu]) hframe
  have hmoves : BlockMoves u u := by rw [hu]; exact ⟨hl, hp, .inl ⟨ha, rfl⟩⟩
  have hstep : step u = exec .dispatchToken u := by
    obtain ⟨-, hdispatch, -⟩ := stepRunsDecodedOperation
    rw [hdispatch u u hmoves hrunning hready, if_pos (State.isToken_eq_true_iff.2 ⟨kind, hkind⟩)]
  obtain ⟨t, ht, htq, htother, hteq⟩ :=
    tokenIsAnswered u kind hrunning hkind (by rw [hu]; exact hde) (by rw [hu]; exact hl.1)
  have hqueues : ∀ k', u.queue k' = s.queue k' := fun k' => by rw [hu]; cases k' <;> rfl
  have hall : run 7 s = .next t := (run_add_of_run hrun 1).trans ((run_one u).trans (hstep.trans ht))
  refine ⟨t, hall, ?_, ?_, ?_, ?_, ?_, fun k' hk' => (htother k' hk').trans (hqueues k'), ?_, ?_⟩
  · rw [hteq]
  · rw [hteq]
  · rw [hteq, hu]; exact hde
  · rw [hteq, hu]
  · rw [htq, hqueues, hqueue]; rfl
  · rw [hteq, hu]
  · rw [hteq, hqueues, hqueue, hu]
    simp [arbiterEvents, hne]

/-! The block's turn always answers. -/

/-- A byte in a receiving state where the invariants hold: the operation it selects is enabled. -/
theorem received_answers {s : State} {b : Byte} {i : Instr} (hl : s.params.Legal) (hs : s.stopped = false)
    (hr : s.Receives) (hdec : decode s.rxSpace [b] = .ok i) : ∃ t, exec i s = .next t := by
  obtain hd | hd := hr
  · rw [decode_rxSpace_wait hd] at hdec
    cases hdec
    split
    · exact ⟨_, exec_syncStart_eq_next.2 ⟨⟨hs, hd⟩, Nat.lt_of_lt_of_le (by decide) hl.1, rfl⟩⟩
    · next hb => exact ⟨_, exec_syncSkip_eq_next.2 ⟨⟨⟨hs, hd⟩, hb⟩, rfl⟩⟩
  · rw [decode_rxSpace_accum hd] at hdec
    cases hdec
    obtain ⟨hidx, heq⟩ | ⟨hidx, h6, heq⟩ | ⟨hidx, h6, hneed, heq⟩ | ⟨hidx, h6, hneed, heq⟩ :=
      decodeAccum_cases s.params.maxFrame s.idx s.need b
    all_goals rw [heq]
    · exact ⟨_, exec_accOversize_eq_next.2 ⟨⟨⟨hs, hd⟩, hidx⟩, rfl⟩⟩
    · exact ⟨_, exec_accShort_eq_next.2 ⟨⟨⟨hs, hd⟩, hidx, h6⟩, rfl⟩⟩
    · exact ⟨_, exec_accPartial_eq_next.2 ⟨⟨⟨hs, hd⟩, hidx, h6, hneed⟩, rfl⟩⟩
    · exact ⟨_, exec_accComplete_eq_next.2 ⟨⟨⟨hs, hd⟩, hidx, h6, hneed⟩, rfl⟩⟩

/-- The decoder is back in WAIT_START, with the stream and the buffer as they were. -/
def State.Returned (s t : State) : Prop :=
  t.dstate = .waitStart ∧ t.idx = 0 ∧ t.rxq = s.rxq ∧ t.buf = s.buf

/-- From a terminal state the block's turn returns, by the DISPATCH of the state (O30 to O33). -/
theorem dispatch_returns {s u : State} (hinv : u.FrameInv) (hm : BlockMoves s u) (hl : u.params.Legal)
    (hs : u.stopped = false) (hr : ¬u.Receives) : ∃ t, step s = .next t ∧ u.Returned t := by
  obtain ⟨-, hready, hfailed, hinvalid, -⟩ := stepRunsDecodedOperation
  have hde := hinv.receiving
  cases hd : u.dstate with
  | waitStart => exact absurd (.inl hd) hr
  | accum => exact absurd (.inr hd) hr
  | frameReady =>
    have hstep := hready s u hm hs hd
    by_cases htok : ∃ k, u.Presents k
    · rw [if_pos (State.isToken_eq_true_iff.2 htok)] at hstep
      obtain ⟨k, hk⟩ := htok
      obtain ⟨t, ht, -, -, hteq⟩ := tokenIsAnswered u k hs hk hde hl.1
      exact ⟨t, hstep.trans ht, by rw [hteq], by rw [hteq], by rw [hteq], by rw [hteq]⟩
    · rw [if_neg (mt State.isToken_eq_true_iff.1 htok)] at hstep
      obtain ⟨hidx, -, hmax, -⟩ := hinv.complete (.inl hd)
      obtain ⟨d, fwd, -, -, -, ht⟩ := dataFrameIsHandedOn u hs hd htok hde (by omega)
      exact ⟨_, hstep.trans ht, rfl, rfl, rfl, rfl⟩
  | chkFailed =>
    have hstep := hfailed s u hm hs hd
    obtain ⟨hack, hno⟩ := checksumFailureIsAnswered u hs hd hde (Nat.lt_of_lt_of_le (by decide) hl.1)
    cases hadm : shouldAck u.cfg (u.buf.read 2) with
    | true => exact ⟨_, hstep.trans (hack hadm), rfl, rfl, rfl, rfl⟩
    | false => exact ⟨_, hstep.trans (hno hadm), rfl, rfl, rfl, rfl⟩
  | invalid => exact ⟨_, (hinvalid s u hm hs hd).trans (invalidIsDropped u hs hd), rfl, rfl, rfl, rfl⟩

/-- The block's turn on a state whose invariants hold, in the terms of the state it moves on. -/
theorem blockTurn_answers {s u : State} (hinv : u.FrameInv) (hm : BlockMoves s u) (hl : u.params.Legal) :
    ∃ t, step s = .next t ∧ (u.stopped = false → ¬u.Receives → u.Returned t) := by
  by_cases hq : u.Quiescent
  · refine ⟨u, idleTurnChangesNothing s u hm hq, fun hs hr => ?_⟩
    obtain hst | ⟨hrec, -⟩ := hq
    · exact absurd (hs.symm.trans hst) Bool.false_ne_true
    · exact absurd hrec hr
  · have hs : u.stopped = false := Bool.eq_false_iff.2 fun hst => hq (.inl hst)
    by_cases hr : u.Receives
    · obtain ⟨b, rest, hrxq⟩ := List.exists_cons_of_ne_nil fun hnil => hq (.inr ⟨hr, hnil⟩)
      obtain ⟨i, hdec⟩ : ∃ i, decode u.rxSpace [b] = .ok i := by
        obtain hd | hd := hr
        · exact ⟨_, decode_rxSpace_wait hd b⟩
        · exact ⟨_, decode_rxSpace_accum hd b⟩
      obtain ⟨t, ht⟩ := received_answers (s := { u with rxq := rest }) hl hs hr hdec
      exact ⟨t, (stepRunsDecodedOperation.1 s u b rest i hm hs hr hrxq hdec).trans ht, fun _ hno => absurd hr hno⟩
    · obtain ⟨t, ht, hret⟩ := dispatch_returns hinv hm hl hs hr
      exact ⟨t, ht, fun _ _ => hret⟩

/-- Settles O58: the state the block moves on differs from the first in its agenda only. -/
theorem blockNeverStopsItself : Obligations.BlockNeverStopsItself := by
  intro s u hinv hm
  have hmove := hm
  obtain ⟨hl, -, ⟨-, rfl⟩ | ⟨-, rfl⟩⟩ := hmove
  · exact blockTurn_answers hinv hm hl
  · exact blockTurn_answers (u := { s with agenda := s.agenda.tail })
      (hinv.of_eq rfl rfl rfl rfl rfl hinv.receiving) hm hl

end Sys2Proof.Machine
end
